-- ==== Sys2Proof/Word.lean ====
section
/-! DEFINITION. The octet, the block's only machine word (R11: an octet is 8 bits, unsigned, bit 0 least
significant). Bit i of an octet v, the spec's `v[i]`, is `v.getLsbD i`. -/

namespace Sys2Proof

/-- R11: an octet. -/
abbrev Byte := BitVec 8

end Sys2Proof
end

