-- ==== Sys2Proof/Syntax.lean ====
section
/-! DEFINITION. The syntax of the block: the enumerations of R50 to R53, the instructions (one constructor per
row of spec/opcode_table.json) with the three slots the block reads a code from (R122, R105, R110), and the
descriptor types of R54 to R59. -/

namespace Sys2Proof

/-- R50: the C/R bit, bit 1 of every octet that carries it. -/
inductive CommandResponse where
  | response
  | command
deriving DecidableEq, Repr, Inhabited

/-- R51: the P/F bit, bit 4 of the TYPE octet. -/
inductive PollFinal where
  | final
  | poll
deriving DecidableEq, Repr, Inhabited

/-- R52: the six frame types. -/
inductive FrameType where
  | sabm
  | ua
  | dm
  | disc
  | uih
  | ui
deriving DecidableEq, Repr, Inhabited

/-- R53: the eleven information types (C2: eleven, not nine). -/
inductive InfoType where
  | pn
  | psc
  | cld
  | test
  | fcOn
  | fcOff
  | msc
  | nsc
  | rpn
  | rls
  | snc
deriving DecidableEq, Repr, Inhabited

/-- Where the block reads a code of the opcode table: the `CMD` register (R122), the TYPE octet of a frame
(R105) or the tag octet of an information field (R110). -/
inductive Slot where
  | cmd
  | frameType
  | infoTag
deriving DecidableEq, Repr

/-- The instructions, one constructor per row of spec/opcode_table.json. A frame type carries its P/F bit
(R105), an information type its C/R bit (R110). Bit 0 of a tag octet is ignored on read and written 0 (R110),
so it is no operand (log 28). -/
inductive Instr where
  /-- R123 -/
  | nop
  /-- R150 -/
  | rxStart
  /-- R174 -/
  | rxAbort
  /-- R200 -/
  | txStart
  /-- R210 -/
  | txAbort
  /-- R159 -/
  | sabm (pf : PollFinal)
  /-- R161 -/
  | ua (pf : PollFinal)
  /-- R161 -/
  | dm (pf : PollFinal)
  /-- R161 -/
  | disc (pf : PollFinal)
  /-- R160 -/
  | uih (pf : PollFinal)
  /-- R161 -/
  | ui (pf : PollFinal)
  /-- R232 -/
  | pn (cr : CommandResponse)
  /-- R250 -/
  | psc (cr : CommandResponse)
  /-- R234 -/
  | cld (cr : CommandResponse)
  /-- R251 -/
  | test (cr : CommandResponse)
  /-- R238 -/
  | fcOn (cr : CommandResponse)
  /-- R236 -/
  | fcOff (cr : CommandResponse)
  /-- R240 -/
  | msc (cr : CommandResponse)
  /-- R242 -/
  | nsc (cr : CommandResponse)
  /-- R244 -/
  | rpn (cr : CommandResponse)
  /-- R246 -/
  | rls (cr : CommandResponse)
  /-- R248 -/
  | snc (cr : CommandResponse)
deriving DecidableEq, Repr

/-- R122, R106, R112: the slot an instruction's code stands in. -/
def Instr.slot : Instr → Slot
  | .nop | .rxStart | .rxAbort | .txStart | .txAbort => .cmd
  | .sabm _ | .ua _ | .dm _ | .disc _ | .uih _ | .ui _ => .frameType
  | .pn _ | .psc _ | .cld _ | .test _ | .fcOn _ | .fcOff _ | .msc _ | .nsc _ | .rpn _ | .rls _ | .snc _ => .infoTag

/-- R57: the bodies of the nine implemented information types. A Control (R54), a Break (R55) and a
RemoteLineStatus (R56) are each exactly one octet. -/
inductive InfoBody where
  | pn
  | cld
  | fcOff
  | fcOn
  | msc (dlci : BitVec 6) (dlciCr : CommandResponse) (control : Byte) (brk : Option Byte)
  | nsc (commandType : InfoType) (commandCr : CommandResponse)
  | rpn (raw : List Byte)
  | rls (dlci : BitVec 6) (dlciCr : CommandResponse) (status : Byte)
  | snc (raw : List Byte)
deriving DecidableEq, Repr, Inhabited

/-- R58: an information field; its type is a function of its body. -/
structure InformationField where
  cr : CommandResponse
  body : InfoBody
deriving DecidableEq, Repr, Inhabited

/-- R59: a frame descriptor. -/
inductive Frame where
  | sabm (id : BitVec 6) (pf : PollFinal)
  | uih (id : BitVec 6) (cr : CommandResponse) (pf : PollFinal) (info : InformationField)
deriving DecidableEq, Repr, Inhabited

end Sys2Proof
end

