-- ==== Sys2Proof/Config.lean ====
section
/-! DEFINITION. What the platform fixes for the life of the block (R10, R373), and the model's free values.
The parameters' default values stand in Decode.lean. -/

namespace Sys2Proof

/-! ### The parameters whose values no rule of the model reads

Each is a constant with no body: an argument of the model that the platform fixes (R373). No proof can see what it
is, so that whatever is proved holds for every one. -/

/-- PARAMETER (R10, D21; log 9): which numbers stand for an I/O error kind of the platform beside the two
distinguished ones. -/
opaque Config.isOtherKind : Nat → Bool

/-- R10: the members of the parameter type `IoKind` beside the two distinguished ones: whatever set of them the
platform has, the empty set too. -/
abbrev Config.OtherKind : Type := { n : Nat // Config.isOtherKind n = true }

/-- R10: `IoKind`, the parameter type of I/O error kinds: two distinguished members, and the platform's own. No rule
looks inside a kind. -/
inductive IoKind where
  | brokenPipe
  | unexpectedEof
  | other (kind : Config.OtherKind)
deriving DecidableEq, Repr, Inhabited

/-- R32 to R36: the host interface registers. -/
inductive HostRegister where
  | cmd
  | rxStatus
  | rxResult
  | txDesc
  | txStatus
deriving DecidableEq, Repr

/-- PARAMETER (R10, R75, D2; log 21): `REG_MAP`, the address of each host interface register, OPEN. -/
opaque Config.regMap : HostRegister → Nat

/-- PARAMETER (R10, D35; log 21): `DESC_LAYOUT`, the bits a frame descriptor is packed into, bit 0 first, if the
platform wants a packing (`none` where it does not), OPEN. -/
opaque Config.descLayout : Option (Frame → List Bool)

/-! ### The parameters that rules read -/

/-- R10: `INFO_TAG`, one tag octet for each of the eleven information types. -/
structure InfoTags where
  pn : Byte
  psc : Byte
  cld : Byte
  test : Byte
  fcOn : Byte
  fcOff : Byte
  msc : Byte
  nsc : Byte
  rpn : Byte
  rls : Byte
  snc : Byte
deriving DecidableEq, Repr

/-- R10, R373: the parameters that some rule reads, fixed for the life of the block. The others stand above. -/
structure Params where
  /-- `INFO_TAG` -/
  infoTags : InfoTags
  /-- `IO_KIND_EOF`: the kind reported when the source ends in the middle of a frame -/
  ioKindEof : IoKind
deriving DecidableEq, Repr

/-! ### Free values -/

/-- FREE VALUE (I7, R33; log 11): what a read of a status register shows as IO_KIND while ERR is not 1, by the
number of the read. It has no body: no proof can see it. -/
opaque Config.freeIoKind : Nat → IoKind

/-- FREE VALUE (R35; log 12): what a read of TX_DESC shows before the first write, by the number of the read. It has
no body: no proof can see it. -/
opaque Config.freeFrame : Nat → Frame

end Sys2Proof
end

