-- ==== Sys2Proof/WellFormed.lean ====
section
/-! DEFINITION. The checks the spec puts on what is handed to the block: the parameter `INFO_TAG` (R10, D28) and a
frame descriptor (R60). Every operand of an `Instr` is an enumeration, so every `Instr` is well formed by its
type; a reserved code is refused by the decoder, by name. -/

namespace Sys2Proof

/-- `INFO_TAG` as a list, in the order of R53. -/
def InfoTags.toList (t : InfoTags) : List Byte :=
  [t.pn, t.psc, t.cld, t.test, t.fcOn, t.fcOff, t.msc, t.nsc, t.rpn, t.rls, t.snc]

/-- R10: "the 11 values are pairwise distinct". -/
def InfoTags.distinct (t : InfoTags) : Bool := decide t.toList.Nodup

/-- R10: "each is an octet with bits 1:0 zero". -/
def InfoTags.lowBitsZero (t : InfoTags) : Bool := t.toList.all fun v => v &&& 0x03#8 == 0x00#8

/-- R10, D28: no value is 0x00. -/
def InfoTags.nonZero (t : InfoTags) : Bool := t.toList.all fun v => v != 0x00#8

/-- R10: the constraints on `INFO_TAG`. -/
def InfoTags.wellFormed (t : InfoTags) : Bool := t.distinct && t.lowBitsZero && t.nonZero

/-- R10: the constraints on the parameters; `IO_KIND_EOF` has none. -/
def Params.wellFormed (p : Params) : Bool := p.infoTags.wellFormed

/-- R60: a `raw` field holds 1 to 253 octets. -/
def rawLengthOk (raw : List Byte) : Bool := decide (1 ≤ raw.length ∧ raw.length ≤ 253)

/-- R60: every `raw` field of the body has an allowed length. -/
def InfoBody.wellFormed : InfoBody → Bool
  | .rpn raw | .snc raw => rawLengthOk raw
  | .pn | .cld | .fcOff | .fcOn | .msc .. | .nsc .. | .rls .. => true

/-- R60, R201: `valid(d)`. -/
def Frame.wellFormed : Frame → Bool
  | .sabm .. => true
  | .uih _ _ _ info => info.body.wellFormed

end Sys2Proof
end

