-- ==== Sys2Proof/Decode.lean ====
section
/-! DEFINITION. The two opcode maps (R106, R112) and the command codes (R122): the decoder of each slot, total and
rejecting by name, the encoder, the parameters' defaults, and the host's `decodeTableWord`. -/

namespace Sys2Proof

/-! ### Bit fields shared by octets (R50, R51, R119) -/

/-- R50: on write, 0x02 for Command and 0x00 for Response. -/
def crBit : CommandResponse → Byte
  | .command => 0x02#8
  | .response => 0x00#8

/-- R50: on read, Command exactly when bit 1 is 1, whatever the other bits (C12). -/
def crOf (b : Byte) : CommandResponse := if b.getLsbD 1 then .command else .response

/-- R51: on write, 0x10 for Poll and 0x00 for Final. -/
def pfBit : PollFinal → Byte
  | .poll => 0x10#8
  | .final => 0x00#8

/-- R51: on read, Poll exactly when bit 4 is 1. -/
def pfOf (b : Byte) : PollFinal := if b.getLsbD 4 then .poll else .final

/-! ### The frame-type map -/

/-- R106, R9: the tag octet of a frame type. -/
def frameTypeTag : FrameType → Byte
  | .sabm => 0x2F#8
  | .ua => 0x63#8
  | .dm => 0x0F#8
  | .disc => 0x43#8
  | .uih => 0xEF#8
  | .ui => 0x03#8

/-- R52: the frame types, in the order of R106. -/
def frameTypes : List FrameType := [.sabm, .ua, .dm, .disc, .uih, .ui]

/-- R105, R106: classification by `TYPE & 0xEF`. -/
def classifyFrameType (t : Byte) : Option FrameType :=
  frameTypes.find? fun ft => frameTypeTag ft == t &&& 0xEF#8

/-- R203: the TYPE octet. -/
def typeOctet (ft : FrameType) (pf : PollFinal) : Byte := frameTypeTag ft ||| pfBit pf

/-- The instruction a classified frame type with its P/F bit stands for. -/
def frameInstr (ft : FrameType) (pf : PollFinal) : Instr :=
  match ft with
  | .sabm => .sabm pf
  | .ua => .ua pf
  | .dm => .dm pf
  | .disc => .disc pf
  | .uih => .uih pf
  | .ui => .ui pf

/-! ### The information-type map -/

/-- R112: the defaults of `INFO_TAG` (PRESUMED by the spec itself from TS 27.010; log 8). -/
def defaultInfoTags : InfoTags where
  pn := 0x80#8
  psc := 0x40#8
  cld := 0xC0#8
  test := 0x20#8
  fcOn := 0xA0#8
  fcOff := 0x60#8
  msc := 0xE0#8
  nsc := 0x10#8
  rpn := 0x90#8
  rls := 0x50#8
  snc := 0xD0#8

/-- R10: the parameters' defaults (logs 8 and 10). -/
def defaultParams : Params where
  infoTags := defaultInfoTags
  ioKindEof := .unexpectedEof

/-- R10: `INFO_TAG[T]`. -/
def infoTagOf (tags : InfoTags) : InfoType → Byte
  | .pn => tags.pn
  | .psc => tags.psc
  | .cld => tags.cld
  | .test => tags.test
  | .fcOn => tags.fcOn
  | .fcOff => tags.fcOff
  | .msc => tags.msc
  | .nsc => tags.nsc
  | .rpn => tags.rpn
  | .rls => tags.rls
  | .snc => tags.snc

/-- R53: the information types, in the order of the rule. -/
def infoTypes : List InfoType := [.pn, .psc, .cld, .test, .fcOn, .fcOff, .msc, .nsc, .rpn, .rls, .snc]

/-- R111: classification by `g & 0xFC`. -/
def classifyInfoTag (tags : InfoTags) (g : Byte) : Option InfoType :=
  infoTypes.find? fun T => infoTagOf tags T == g &&& 0xFC#8

/-- R206, R110: the tag octet, bit 0 written 0. -/
def tagOctet (tags : InfoTags) (T : InfoType) (cr : CommandResponse) : Byte := infoTagOf tags T ||| crBit cr

/-- The instruction a classified information type with its C/R bit stands for. -/
def infoInstr (T : InfoType) (cr : CommandResponse) : Instr :=
  match T with
  | .pn => .pn cr
  | .psc => .psc cr
  | .cld => .cld cr
  | .test => .test cr
  | .fcOn => .fcOn cr
  | .fcOff => .fcOff cr
  | .msc => .msc cr
  | .nsc => .nsc cr
  | .rpn => .rpn cr
  | .rls => .rls cr
  | .snc => .snc cr

/-! ### Decoders -/

/-- Why a code is no instruction. -/
inductive DecodeError where
  /-- R124: CMD codes 0b011, 0b100 and 0b111. -/
  | reservedCommand (c : BitVec 3)
  /-- R122: CMD holds 3 bits; a wider value is no command code. -/
  | commandTooWide (w : Byte)
  /-- R107: a TYPE octet that matches no row of R106. -/
  | unknownFrameType (t : Byte)
  /-- R113: a tag octet whose key matches no `INFO_TAG` value. -/
  | unknownInfoTag (g : Byte)
deriving DecidableEq, Repr

/-- R122: the command a 3-bit code stands for. -/
def decodeCmd (c : BitVec 3) : Except DecodeError Instr :=
  if c = 0b000#3 then .ok .nop
  else if c = 0b001#3 then .ok .rxStart
  else if c = 0b010#3 then .ok .rxAbort
  else if c = 0b101#3 then .ok .txStart
  else if c = 0b110#3 then .ok .txAbort
  else .error (.reservedCommand c)

/-- R105, R106: the instruction of a TYPE octet. -/
def decodeFrameType (t : Byte) : Except DecodeError Instr :=
  match classifyFrameType t with
  | some ft => .ok (frameInstr ft (pfOf t))
  | none => .error (.unknownFrameType t)

/-- R110, R111: the instruction of a tag octet; bit 0 is ignored. -/
def decodeInfoTag (tags : InfoTags) (g : Byte) : Except DecodeError Instr :=
  match classifyInfoTag tags g with
  | some T => .ok (infoInstr T (crOf g))
  | none => .error (.unknownInfoTag g)

/-- The instruction a code stands for in its slot; a CMD code is given zero-extended to an octet. -/
def decode (tags : InfoTags) (slot : Slot) (w : Byte) : Except DecodeError Instr :=
  match slot with
  | .cmd => if w.toNat < 8 then decodeCmd (w.setWidth 3) else .error (.commandTooWide w)
  | .frameType => decodeFrameType w
  | .infoTag => decodeInfoTag tags w

/-! ### Encoder -/

/-- R122, R203, R206: the code of an instruction in its slot; a CMD code is zero-extended to an octet. -/
def encode (tags : InfoTags) : Instr → Byte
  | .nop => 0x00#8
  | .rxStart => 0x01#8
  | .rxAbort => 0x02#8
  | .txStart => 0x05#8
  | .txAbort => 0x06#8
  | .sabm pf => typeOctet .sabm pf
  | .ua pf => typeOctet .ua pf
  | .dm pf => typeOctet .dm pf
  | .disc pf => typeOctet .disc pf
  | .uih pf => typeOctet .uih pf
  | .ui pf => typeOctet .ui pf
  | .pn cr => tagOctet tags .pn cr
  | .psc cr => tagOctet tags .psc cr
  | .cld cr => tagOctet tags .cld cr
  | .test cr => tagOctet tags .test cr
  | .fcOn cr => tagOctet tags .fcOn cr
  | .fcOff cr => tagOctet tags .fcOff cr
  | .msc cr => tagOctet tags .msc cr
  | .nsc cr => tagOctet tags .nsc cr
  | .rpn cr => tagOctet tags .rpn cr
  | .rls cr => tagOctet tags .rls cr
  | .snc cr => tagOctet tags .snc cr

/-! ### The opcode table's words -/

/-- The slot in which an octet of the opcode table is read when nothing but the octet is known (log 1). In the
machine the slot is never in doubt; here a command code comes first, then a frame type, then an information
type, which gives every row of the table its own `match` word. -/
def tableSlot (w : Byte) : Slot :=
  if w.toNat < 8 ∧ (decodeCmd (w.setWidth 3)).isOk then .cmd
  else if (decodeFrameType w).isOk then .frameType
  else .infoTag

/-- The instruction the decoder reads from a word of spec/opcode_table.json, under the default `INFO_TAG`. Every
row is one octet or less; a word of more than 8 bits is none. -/
def decodeTableWord (nbits w : Nat) : Option Instr :=
  if nbits ≤ 8 ∧ w < 256 then
    let b := BitVec.ofNat 8 w
    (decode defaultInfoTags (tableSlot b) b).toOption
  else none

end Sys2Proof
end

