-- ==== Sys2Proof/Machine/State.lean ====
section
/-! DEFINITION. The machine's state as plain data: the host registers (R32 to R39), the two engines' working
registers and buffers (R40 to R47), the streams and the host beside the block (R7, R8), the schedule of the
agents (R84); why a step can stop; and the state after reset (R63). -/

namespace Sys2Proof.Machine

/-- R33, R36: the PHASE of an engine. -/
inductive Phase where
  | idle
  | busy
  | done
  | error
deriving DecidableEq, Repr

/-- R330, R332: the transaction errors. -/
inductive CmuxError where
  | io (kind : IoKind)
  | crcMismatch
  | invalidFrameFormat
  | unsupportedOperation
  | invalidInformationField
deriving DecidableEq, Repr

/-- R33, R36: a status register. -/
structure Status where
  phase : Phase
  err : BitVec 3
  ioKind : IoKind
deriving DecidableEq, Repr

/-- R40: the RX engine's sequencing register. -/
inductive RxState where
  | hunt
  | addr
  | type
  | len1
  | len2
  | info
  | fcs
  | close
deriving DecidableEq, Repr

/-- The contents of an octet buffer (R73, R74): the octets that differ from what an unlisted index reads as, by
strictly rising index. -/
abbrev Memory := List Host.Cell

/-- R33, R34, R40 to R42: the RX engine. -/
structure RxEngine where
  /-- RX_STATUS -/
  status : Status
  /-- RX_RESULT; `none` is invalid -/
  result : Option Frame
  /-- rx_state -/
  state : RxState
  /-- rx_addr -/
  addr : Byte
  /-- rx_type -/
  typ : Byte
  /-- rx_ftype -/
  ftype : FrameType
  /-- rx_len1 -/
  len1 : Byte
  /-- rx_len -/
  len : BitVec 14
  /-- rx_cnt -/
  cnt : BitVec 8
  /-- rx_crc -/
  crc : Byte
  /-- rx_info -/
  info : InformationField
  /-- rx_buf -/
  buf : Memory
deriving DecidableEq, Repr

/-- R35, R36, R44, R45: the TX engine. -/
structure TxEngine where
  /-- TX_STATUS -/
  status : Status
  /-- TX_DESC; `none` is invalid -/
  desc : Option Frame
  /-- tx_buf -/
  buf : Memory
  /-- tx_len -/
  len : BitVec 9
  /-- tx_idx -/
  idx : BitVec 9
deriving DecidableEq, Repr

/-- R8: what a source read answers. -/
inductive SrcEvent where
  | byte (b : Byte)
  | eof
  | fault (k : IoKind)
deriving DecidableEq, Repr

/-- R8: what a sink write answers. -/
inductive SinkAnswer where
  | ok
  | fault (k : IoKind)
deriving DecidableEq, Repr

/-- R32 to R36: what the host can do to the registers. A refused write carries no value (log 27). -/
inductive HostAction where
  | writeCmd (c : BitVec 3)
  | writeTxDesc (d : Frame)
  | writeRxStatus
  | writeRxResult
  | writeTxStatus
  | readCmd
  | readRxStatus
  | readRxResult
  | readTxDesc
  | readTxStatus
deriving DecidableEq, Repr

/-- What a host read returns: a status register's three fields, or a descriptor. -/
inductive HostValue where
  | status (phase : BitVec 2) (err : BitVec 3) (ioKind : IoKind)
  | frame (f : Frame)
deriving DecidableEq, Repr

/-- R7: the host agent: its actions still to come, in order, and what its last read returned (log 7). -/
structure HostAgent where
  pending : List HostAction
  lastRead : Option HostValue
deriving DecidableEq, Repr

/-- R84, R370: who moves: the host, an engine (with its stream's next answer), or the platform's reset. -/
inductive Agent where
  | host
  | rx
  | tx
  | reset
deriving DecidableEq, Repr

/-- The machine's state. -/
structure State where
  /-- R373: the parameters, fixed for the life of the block -/
  params : Params
  /-- the RX engine -/
  rx : RxEngine
  /-- the TX engine -/
  tx : TxEngine
  /-- the host -/
  host : HostAgent
  /-- R71: the byte source's answers still to come; when the list is empty the source does not answer (log 4) -/
  source : List SrcEvent
  /-- R72: the byte sink's answers still to come; when the list is empty the sink does not answer (log 5) -/
  sinkAnswers : List SinkAnswer
  /-- R72: the octets the sink has accepted, first octet first -/
  sinkOctets : List Byte
  /-- R84: who moves next; the model's own (log 3) -/
  schedule : List Agent
  /-- the number of the next free value; the model's own (log 13) -/
  freeCount : Nat
deriving DecidableEq, Repr

/-- Why the machine stops with a fault: an access to an index that does not exist in an octet buffer. No run
reaches one (R73, R74, R81). Each is safe: the model stops where the spec gives no access. -/
inductive Fault where
  /-- An INFO step writes `rx_buf` at an index of 254 or more (R42, R162). Raised by `rxInfoOctet`. Safe. -/
  | rxBufIndex
  /-- An information field of 0 or of more than 254 octets would be read from `rx_buf` (R42, R230 with `n` ≥ 1).
  Raised by the information types' meanings. Safe. -/
  | rxInfoLength
  /-- An emit step reads `tx_buf` at an index of 261 or more (R44, R207). Raised by `txEmit`. Safe. -/
  | txBufIndex
deriving DecidableEq, Repr

/-- R342: the model faults, which the spec calls refusals: the action has no meaning, and no state changes. Each
is safe: the model stops. -/
inductive Refusal where
  /-- An instruction exec does not model. Raised by exec's arms only. Safe. -/
  | notModelled (mnemonic : String)
  /-- START while BUSY, a reserved CMD code, a host write to a read-only register, a host read of CMD (R32 to
  R38, R124). Raised by RX_START, TX_START and the host port. Safe. -/
  | hostProtocol
  /-- A host read of RX_RESULT while PHASE is not DONE (R34). Raised by the host port. Safe. -/
  | resultNotValid
  /-- TX_START with an invalid or never written TX_DESC (R201). Raised by TX_START. Safe. -/
  | badDescriptor
  /-- `ea_read` meets a fourth octet with EA = 0 (R302). Raised by `eaRead`, which no transaction calls. Safe. -/
  | eaOverflow
  /-- `ea_write(n)` with n ≥ 2^28 (R300). Raised by `eaWrite`; no transaction reaches it. Safe. -/
  | eaTooLarge
deriving DecidableEq, Repr

/-- What a meaning answers. -/
abbrev Result := Host.Outcome State Fault Refusal

/-- R63: a status register after reset; IO_KIND is unspecified and takes a named value (log 14). -/
def Status.reset : Status where
  phase := .idle
  err := 0
  ioKind := .brokenPipe

/-- R63: the RX engine after reset. The spec states RX_STATUS and RX_RESULT; the working registers are unspecified
and take named values (logs 14 and 15). -/
def RxEngine.reset : RxEngine where
  status := Status.reset
  result := none
  state := .hunt
  addr := 0
  typ := 0
  ftype := .sabm
  len1 := 0
  len := 0
  cnt := 0
  crc := 0
  info := ⟨.response, .pn⟩
  buf := []

/-- R63: the TX engine after reset. The spec states TX_STATUS and TX_DESC; the working registers are unspecified
and take named values (logs 14 and 15). -/
def TxEngine.reset : TxEngine where
  status := Status.reset
  desc := none
  buf := []
  len := 0
  idx := 0

/-- R63, R370, R372: the machine right after reset, with nothing said to it yet: it waits for a host command. R63
states no value for what stands outside the block; the model's choices are the host's empty list and nothing read (log
7), the silent source (log 4), the silent sink with no octet accepted yet, where the TX stream of R72 starts (log 5), the
empty schedule (log 3) and the counter 0 (log 13). The parameters are the spec's defaults (logs 8 and 10). -/
def State.reset : State where
  params := defaultParams
  rx := RxEngine.reset
  tx := TxEngine.reset
  host := ⟨[], none⟩
  source := []
  sinkAnswers := []
  sinkOctets := []
  schedule := []
  freeCount := 0

end Sys2Proof.Machine
end

