-- ==== Sys2Proof/Machine/Constants.lean ====
section
/-! DEFINITION. The block's fixed constants (R9). The frame-type tags stand in Decode.lean. -/

namespace Sys2Proof.Machine

/-- R9: `FLAG`. -/
def flag : Byte := 0xF9#8

/-- R9: `MAX_INFO_LEN`. -/
def maxInfoLen : Nat := 254

/-- R9, R42: `RX_BUF_LEN`. -/
def rxBufLen : Nat := 254

/-- R9, R44: `TX_BUF_LEN`. -/
def txBufLen : Nat := 261

/-- R9: `EA_WRITE_MAX`, in octets. -/
def eaWriteMax : Nat := 4

/-- R9: `EA_READ_MAX`, in groups. -/
def eaReadMax : Nat := 4

/-- R9, R291: `CRC_POLY`, reflected form (log 23). -/
def crcPoly : Byte := 0xE0#8

/-- R9, R291: `CRC_INIT` (log 23). -/
def crcInitValue : Byte := 0xFF#8

/-- R9: `GOOD_FCS`. -/
def goodFcs : Byte := 0xCF#8

end Sys2Proof.Machine
end

