-- ==== Sys2Proof/Machine/Flags.lean ====
section
/-! DEFINITION. The block's only flag-like state (R48): the PHASE, ERR and IO_KIND fields of a status register, and
the transitions of R38 that write them. -/

namespace Sys2Proof.Machine

/-- R33: the value the 2-bit PHASE field reads. -/
def phaseCode : Phase → BitVec 2
  | .idle => 0
  | .busy => 1
  | .done => 2
  | .error => 3

/-- R332: `code(E)`. -/
def errCode : CmuxError → BitVec 3
  | .io _ => 1
  | .crcMismatch => 2
  | .invalidFrameFormat => 3
  | .unsupportedOperation => 4
  | .invalidInformationField => 5

/-- R38: START accepted. -/
def statusStart (st : Status) : Status := { st with phase := .busy, err := 0 }

/-- R38: the transaction completes. -/
def statusComplete (st : Status) : Status := { st with phase := .done, err := 0 }

/-- R38, R331: the transaction raises `e`; only Io records a kind. -/
def statusRaise (e : CmuxError) (st : Status) : Status where
  phase := .error
  err := errCode e
  ioKind := match e with
    | .io k => k
    | .crcMismatch | .invalidFrameFormat | .unsupportedOperation | .invalidInformationField => st.ioKind

/-- R38: ABORT of a BUSY engine. -/
def statusAbort (st : Status) : Status := { st with phase := .idle, err := 0 }

/-- R33, I7: what a read of a status register shows. While ERR is not 1 the field IO_KIND is unspecified, and the
read shows the free value `n` (log 11). -/
def statusRead (n : Nat) (st : Status) : HostValue :=
  .status (phaseCode st.phase) st.err (if st.err = 1 then st.ioKind else Config.freeIoKind n)

end Sys2Proof.Machine
end

