-- ==== Sys2Proof/Machine/Ops.lean ====
section
/-! DEFINITION. The named operations over the octet buffers and the registers, and taking an exception: `raise`
(R331), the one shared operation, with what stands where an ISA returns from one (R340: no return
instruction; the next START resumes, see Commands.lean). -/

namespace Sys2Proof.Machine

/-! ### Octet buffers (R70, R73, R74, R80) -/

/-- What an index that is not listed reads as (log 15). R73: RX_START writes 0x00 everywhere. -/
def memUnlisted : Byte := 0x00#8

/-- `MemRead` of one octet. -/
def memRead : Memory → Nat → Byte
  | [], _ => memUnlisted
  | (k, v) :: m, i => if i = k then v else memRead m i

/-- `MemWrite` of one octet; it keeps the canonical form. -/
def memWrite : Memory → Nat → Byte → Memory
  | [], i, b => if b = memUnlisted then [] else [(i, b)]
  | (k, v) :: m, i, b =>
    if i < k then (if b = memUnlisted then (k, v) :: m else (i, b) :: (k, v) :: m)
    else if i = k then (if b = memUnlisted then m else (k, b) :: m)
    else (k, v) :: memWrite m i b

/-- The canonical form: indexes strictly rising, no octet equal to what an unlisted index reads as. -/
def Memory.wf : Memory → Bool
  | [] => true
  | (k, v) :: m => v != memUnlisted && m.all (fun c => decide (k < c.1)) && Memory.wf m

/-- Every listed index lies in a buffer of `size` octets. -/
def Memory.within (size : Nat) (m : Memory) : Bool := m.all fun c => decide (c.1 < size)

/-- `MemRead(buf, i, n)`: `n` octets from index `i`, in index order. -/
def memReadRange (m : Memory) (i n : Nat) : List Byte := (List.range n).map fun j => memRead m (i + j)

/-- `MemWrite(buf, i, n, s)`: the octets of `s` from index `i`, in index order. -/
def memWriteAll : Memory → Nat → List Byte → Memory
  | m, _, [] => m
  | m, i, b :: s => memWriteAll (memWrite m i b) (i + 1) s

/-- R150: every octet of `rx_buf` is written 0x00, so that none differs from what an unlisted index reads as. -/
def memClear : Memory := []

/-! ### Updates of one part of the state -/

/-- The RX engine changes, nothing else. -/
def withRx (s : State) (r : RxEngine) : State := { s with rx := r }

/-- The TX engine changes, nothing else. -/
def withTx (s : State) (t : TxEngine) : State := { s with tx := t }

/-- The source's remaining answers change, nothing else. -/
def withSource (s : State) (src : List SrcEvent) : State := { s with source := src }

/-- The host's remaining actions change, nothing else. -/
def withPending (s : State) (as : List HostAction) : State := { s with host := { s.host with pending := as } }

/-- A host read returns `v`, nothing else changes. -/
def withLastRead (s : State) (v : HostValue) : State := { s with host := { s.host with lastRead := some v } }

/-- The schedule changes, nothing else. -/
def withSchedule (s : State) (sch : List Agent) : State := { s with schedule := sch }

/-- One free value has been used (log 13). -/
def nextFree (s : State) : State := { s with freeCount := s.freeCount + 1 }

/-- R13: `rx_state <- q`. -/
def rxGoto (q : RxState) (s : State) : State := withRx s { s.rx with state := q }

/-! ### Errors and completion -/

/-- The two engines (R7). -/
inductive Engine where
  | rx
  | tx
deriving DecidableEq, Repr

/-- R331: `raise E` in a step of engine `X`. The status changes, an RX error makes RX_RESULT invalid, and nothing
else changes: no state is saved for a handler and there is no vector (logs 16 and 17). -/
def raise (X : Engine) (e : CmuxError) (s : State) : State :=
  match X with
  | .rx => withRx s { s.rx with status := statusRaise e s.rx.status, result := none }
  | .tx => withTx s { s.tx with status := statusRaise e s.tx.status }

/-- R168: `complete(frame)` of the RX engine. -/
def rxComplete (f : Frame) (s : State) : State :=
  withRx s { s.rx with status := statusComplete s.rx.status, result := some f }

/-- R209: `complete()` of the TX engine. -/
def txComplete (s : State) : State := withTx s { s.tx with status := statusComplete s.tx.status }

/-- R370, R371: the platform asserts reset: every register of the block takes its reset value (R63). The source and
the sink are not touched, and the parameters are fixed for the life of the block (R373; log 19). -/
def resetBlock (s : State) : State := { s with rx := RxEngine.reset, tx := TxEngine.reset }

end Sys2Proof.Machine
end

