-- ==== Sys2Proof/Machine/Crc.lean ====
section
/-! DEFINITION. The CRC-8 engine (R290 to R297). -/

namespace Sys2Proof.Machine

/-- R292: `crc_init()`. -/
def crcInit : Byte := crcInitValue

/-- R293: one of the eight rounds. -/
def crcRound (c : Byte) : Byte := if c.getLsbD 0 then (c >>> 1) ^^^ crcPoly else c >>> 1

/-- R293: `n` rounds. -/
def crcRounds : Nat → Byte → Byte
  | 0, c => c
  | n + 1, c => crcRounds n (crcRound c)

/-- R293: `crc_update(c, b)`. -/
def crcUpdate (c b : Byte) : Byte := crcRounds 8 (c ^^^ b)

/-- R295: `crc8` from a running register. -/
def crcFold (c : Byte) (s : List Byte) : Byte := s.foldl crcUpdate c

/-- R295: `crc8(s)`. -/
def crc8 (s : List Byte) : Byte := crcFold crcInit s

/-- R295: the FCS for a CRC register: `(0xFF - c) & 0xFF`. -/
def fcsOf (c : Byte) : Byte := 0xFF#8 - c

/-- R295: `fcs(s)`. -/
def fcs (s : List Byte) : Byte := fcsOf (crc8 s)

end Sys2Proof.Machine
end

