-- ==== Sys2Proof/Machine/Ea.lean ====
section
/-! DEFINITION. The EA length writer (R299, R300), the general reader (R301 to R303), and the frame path's
one-octet and two-octet lengths (R157, R304). -/

namespace Sys2Proof.Machine

/-- R299: the smallest number of 7-bit groups, 1 to 4, that holds `n` < 2^28. -/
def eaGroups (n : Nat) : Nat :=
  if n < 2 ^ 7 then 1 else if n < 2 ^ 14 then 2 else if n < 2 ^ 21 then 3 else eaWriteMax

/-- R299: octet `j` of the `m` octets of `n`: the group, most significant first, then the EA bit, 1 on the last. -/
def eaOctet (n m j : Nat) : Byte :=
  BitVec.ofNat 8 ((n / 2 ^ (7 * (m - 1 - j)) % 128) * 2 + (if j = m - 1 then 1 else 0))

/-- R299, R300: `ea_write(n)`. -/
def eaWrite (n : Nat) : Except Refusal (List Byte) :=
  if n < 2 ^ (7 * eaWriteMax) then .ok ((List.range (eaGroups n)).map (eaOctet n (eaGroups n)))
  else .error .eaTooLarge

/-- What `ea_read` comes to. -/
inductive EaResult where
  /-- R301: the value. -/
  | value (n : Nat)
  /-- R303: `raise Io(k)`. -/
  | raised (e : CmuxError)
  /-- R302: the model fault. -/
  | refused (r : Refusal)
  /-- The source does not answer: the reader waits. -/
  | waiting
deriving DecidableEq, Repr

/-- R301: the reader with `fuel` groups left and `acc` read so far; it answers what it comes to and what is left of
the source. -/
def eaReadFrom (p : Params) : Nat → Nat → List SrcEvent → EaResult × List SrcEvent
  | 0, _, src => (.refused .eaOverflow, src)
  | _ + 1, _, [] => (.waiting, [])
  | _ + 1, _, .eof :: src => (.raised (.io p.ioKindEof), src)
  | _ + 1, _, .fault k :: src => (.raised (.io k), src)
  | fuel + 1, acc, .byte b :: src =>
    if b.getLsbD 0 then (.value (acc * 128 + (b >>> 1).toNat), src)
    else eaReadFrom p fuel (acc * 128 + (b >>> 1).toNat) src

/-- R301, R302: `ea_read()`. -/
def eaRead (p : Params) (src : List SrcEvent) : EaResult × List SrcEvent := eaReadFrom p eaReadMax 0 src

/-- R157: the length value of a single LEN octet. -/
def frameLen1 (b : Byte) : BitVec 14 := (b >>> 1).setWidth 14

/-- R304: `frame_len2(b1, b2)`. -/
def frameLen2 (b1 b2 : Byte) : BitVec 14 := ((b1 >>> 1).setWidth 14 <<< 7) ||| (b2 >>> 1).setWidth 14

end Sys2Proof.Machine
end

