-- ==== Sys2Proof/Machine/Operands.lean ====
section
/-! DEFINITION. Operand assembly (R119) and its inverse: the address octet (R104, R202), the DLCI octet of MSC and
RLS (R114), and the information field in `rx_buf` (R73, R230). -/

namespace Sys2Proof.Machine

/-- R119: bits 7:2 of an octet: `id` of ADDR, `dlci` of an MSC or RLS P0. -/
def upper6 (b : Byte) : BitVec 6 := b.extractLsb' 2 6

/-- R202, R241: a 6-bit number in bits 7:2, the C/R bit in bit 1, bit 0 clear. -/
def dlciOctet (d : BitVec 6) (cr : CommandResponse) : Byte := (d.setWidth 8 <<< 2) ||| crBit cr

/-- R202: `addr(id, cr)`, with EA = 1 (C7). -/
def addrOctet (id : BitVec 6) (cr : CommandResponse) : Byte := dlciOctet id cr ||| 0x01#8

/-- R230: the tag octet `g` = `rx_buf[0]`. -/
def rxTagOctet (s : State) : Byte := memRead s.rx.buf 0

/-- R230: the payload `P` = `rx_buf[1..n]` with `n` = `rx_len`; `none` where `rx_buf` holds no such octets, that is
`n` = 0 or `n` > 254 (log 18). -/
def rxPayload (s : State) : Option (List Byte) :=
  if 1 ≤ s.rx.len.toNat ∧ s.rx.len.toNat ≤ rxBufLen then some (memReadRange s.rx.buf 1 (s.rx.len.toNat - 1))
  else none

end Sys2Proof.Machine
end

