-- ==== Sys2Proof/Machine/InfoFields.lean ====
section
/-! DEFINITION. The information-field codecs (R231 to R249): for each implemented type its read rule and its write
rule; and the bitfield octets Control, Break and RemoteLineStatus (R252 to R254). -/

namespace Sys2Proof.Machine

/-! ### Bitfield octets -/

/-- R252: Control's accessors. -/
def controlEa (c : Byte) : Bool := c.getLsbD 0
/-- R252 -/
def controlFc (c : Byte) : Bool := c.getLsbD 1
/-- R252 -/
def controlRtc (c : Byte) : Bool := c.getLsbD 2
/-- R252 -/
def controlRtr (c : Byte) : Bool := c.getLsbD 3
/-- R252: bits 5:4. -/
def controlReserved (c : Byte) : BitVec 2 := c.extractLsb' 4 2
/-- R252 -/
def controlIc (c : Byte) : Bool := c.getLsbD 6
/-- R252 -/
def controlDv (c : Byte) : Bool := c.getLsbD 7

/-- R252: a field setter: `v` truncated to `width` bits at position `pos`, the other bits as they were. -/
def withField (pos width v : Nat) (c : Byte) : Byte :=
  (c &&& ~~~(BitVec.ofNat 8 (2 ^ width - 1) <<< pos)) ||| (BitVec.ofNat 8 (v % 2 ^ width) <<< pos)

/-- R252: Control's setters. -/
def controlWithEa (v : Nat) (c : Byte) : Byte := withField 0 1 v c
/-- R252 -/
def controlWithFc (v : Nat) (c : Byte) : Byte := withField 1 1 v c
/-- R252 -/
def controlWithRtc (v : Nat) (c : Byte) : Byte := withField 2 1 v c
/-- R252 -/
def controlWithRtr (v : Nat) (c : Byte) : Byte := withField 3 1 v c
/-- R252 -/
def controlWithReserved (v : Nat) (c : Byte) : Byte := withField 4 2 v c
/-- R252 -/
def controlWithIc (v : Nat) (c : Byte) : Byte := withField 6 1 v c
/-- R252 -/
def controlWithDv (v : Nat) (c : Byte) : Byte := withField 7 1 v c

/-- R54: `Control::default()`. -/
def controlDefault : Byte := 0x00#8

/-- R253: Break's one accessor. -/
def breakEa (k : Byte) : Bool := k.getLsbD 0

/-- R55: `Break::default()`. -/
def breakDefault : Byte := 0x00#8

/-- R241, R252, R253: an MSC Control or Break octet on the wire, EA forced to 1. -/
def forceEa (c : Byte) : Byte := c ||| 0x01#8

/-! ### Read rules: the payload octets of one type, or the error raised -/

/-- R232 -/
def readPn (P : List Byte) : Except CmuxError InfoBody :=
  if P.length ≠ 0 then .error .invalidInformationField else .ok .pn

/-- R234 -/
def readCld (P : List Byte) : Except CmuxError InfoBody :=
  if P.length ≠ 0 then .error .invalidInformationField else .ok .cld

/-- R236 -/
def readFcOff (P : List Byte) : Except CmuxError InfoBody :=
  if P.length ≠ 0 then .error .invalidInformationField else .ok .fcOff

/-- R238 -/
def readFcOn (P : List Byte) : Except CmuxError InfoBody :=
  if P.length ≠ 0 then .error .invalidInformationField else .ok .fcOn

/-- R240: two or three payload octets; Control and Break are stored as received. -/
def readMsc (P : List Byte) : Except CmuxError InfoBody :=
  match P with
  | [p0, c] => .ok (.msc (upper6 p0) (crOf p0) c none)
  | [p0, c, k] => .ok (.msc (upper6 p0) (crOf p0) c (some k))
  | _ => .error .invalidInformationField

/-- R242: the shape first, then the inner tag. -/
def readNsc (tags : InfoTags) (P : List Byte) : Except CmuxError InfoBody :=
  match P with
  | [p0] =>
    match classifyInfoTag tags p0 with
    | some ct => .ok (.nsc ct (crOf p0))
    | none => .error .invalidFrameFormat
  | _ => .error .invalidInformationField

/-- R244 -/
def readRpn (P : List Byte) : Except CmuxError InfoBody :=
  if P.length < 1 then .error .invalidInformationField else .ok (.rpn P)

/-- R246 -/
def readRls (P : List Byte) : Except CmuxError InfoBody :=
  match P with
  | [p0, st] => .ok (.rls (upper6 p0) (crOf p0) st)
  | _ => .error .invalidInformationField

/-- R248 -/
def readSnc (P : List Byte) : Except CmuxError InfoBody :=
  if P.length < 1 then .error .invalidInformationField else .ok (.snc P)

/-! ### Write rules: the payload octets of a body, without the tag octet -/

/-- R241 -/
def writeMsc (dlci : BitVec 6) (dlciCr : CommandResponse) (control : Byte) (brk : Option Byte) : List Byte :=
  match brk with
  | none => [dlciOctet dlci dlciCr, forceEa control]
  | some k => [dlciOctet dlci dlciCr, forceEa control, forceEa k]

/-- R243 -/
def writeNsc (tags : InfoTags) (commandType : InfoType) (commandCr : CommandResponse) : List Byte :=
  [tagOctet tags commandType commandCr]

/-- R247, R254: RemoteLineStatus is not EA-forced. -/
def writeRls (dlci : BitVec 6) (dlciCr : CommandResponse) (status : Byte) : List Byte :=
  [dlciOctet dlci dlciCr, status]

/-- R231: `info_write(body)`: R233, R235, R237, R239, R241, R243, R245, R247, R249. -/
def infoWrite (tags : InfoTags) : InfoBody → List Byte
  | .pn => []
  | .cld => []
  | .fcOff => []
  | .fcOn => []
  | .msc dlci dlciCr control brk => writeMsc dlci dlciCr control brk
  | .nsc commandType commandCr => writeNsc tags commandType commandCr
  | .rpn raw => raw
  | .rls dlci dlciCr status => writeRls dlci dlciCr status
  | .snc raw => raw

/-- R58, R231: `information_type(body)`. -/
def informationType : InfoBody → InfoType
  | .pn => .pn
  | .cld => .cld
  | .fcOff => .fcOff
  | .fcOn => .fcOn
  | .msc .. => .msc
  | .nsc .. => .nsc
  | .rpn _ => .rpn
  | .rls .. => .rls
  | .snc _ => .snc

/-- R231: `wire_len(body)`. -/
def wireLen : InfoBody → Nat
  | .pn => 0
  | .cld => 0
  | .fcOff => 0
  | .fcOn => 0
  | .msc _ _ _ brk => if brk.isSome then 3 else 2
  | .nsc .. => 1
  | .rpn raw => raw.length
  | .rls .. => 2
  | .snc raw => raw.length

end Sys2Proof.Machine
end

