-- ==== Sys2Proof/Machine/Build.lean ====
section
/-! DEFINITION. Building a frame (R202 to R206): the encode half of SABM, UIH and the nine implemented information
types, run by TX_START. -/

namespace Sys2Proof.Machine

/-- R204, R205: the frame around its covered octets: opening flag, covered octets, FCS, closing flag. -/
def envelope (cov : List Byte) : List Byte := flag :: (cov ++ [fcs cov, flag])

/-- R204: the covered octets of a SABM frame; the C/R bit of the address is Command and LEN is 0x01 (C6, C7). -/
def sabmCovered (id : BitVec 6) (pf : PollFinal) : Except Refusal (List Byte) :=
  match eaWrite 0 with
  | .ok L => .ok ([addrOctet id .command, typeOctet .sabm pf] ++ L)
  | .error r => .error r

/-- R205: the covered octets of a UIH frame; LEN counts the tag and the payload (C5) and enters the CRC as
transmitted (C4). -/
def uihCovered (tags : InfoTags) (id : BitVec 6) (cr : CommandResponse) (pf : PollFinal) (info : InformationField) :
    Except Refusal (List Byte) :=
  let P := infoWrite tags info.body
  match eaWrite (1 + P.length) with
  | .ok L => .ok ([addrOctet id cr, typeOctet .uih pf] ++ L ++ [tagOctet tags (informationType info.body) info.cr] ++ P)
  | .error r => .error r

/-- R204, R205: `build(d)`, the octets of the frame, or R300's refusal, which no valid descriptor meets (R212). -/
def build (tags : InfoTags) (d : Frame) : Except Refusal (List Byte) :=
  match d with
  | .sabm id pf => (sabmCovered id pf).map envelope
  | .uih id cr pf info => (uihCovered tags id cr pf info).map envelope

end Sys2Proof.Machine
end

