-- ==== Sys2Proof/Machine/Commands.lean ====
section
/-! DEFINITION. The host commands (R123, R150, R174, R200, R210). A START is also how the host resumes after an
error (R340). -/

namespace Sys2Proof.Machine

/-- R123: NOP has no effect on any state. -/
def execNop (s : State) : Result := .next s

/-- R150: RX_START. It resumes reception after an error too (R340). -/
def execRxStart (s : State) : Result :=
  if s.rx.status.phase = .busy then .refused .hostProtocol
  else .next (withRx s
    { s.rx with status := statusStart s.rx.status, result := none, buf := memClear, state := .hunt })

/-- R174: RX_ABORT. -/
def execRxAbort (s : State) : Result :=
  if s.rx.status.phase = .busy then .next (withRx s { s.rx with status := statusAbort s.rx.status, result := none })
  else .next s

/-- R200: the accepted TX_START: the frame is latched into `tx_buf` in this step. -/
def txLatch (octets : List Byte) (s : State) : State :=
  withTx s { s.tx with
    status := statusStart s.tx.status
    buf := memWriteAll s.tx.buf 0 octets
    len := BitVec.ofNat 9 octets.length
    idx := 0 }

/-- R200, R201: TX_START. -/
def execTxStart (s : State) : Result :=
  if s.tx.status.phase = .busy then .refused .hostProtocol
  else match s.tx.desc with
    | none => .refused .badDescriptor
    | some d =>
      if d.wellFormed then
        match build s.params.infoTags d with
        | .ok octets => .next (txLatch octets s)
        | .error r => .refused r
      else .refused .badDescriptor

/-- R210: TX_ABORT. -/
def execTxAbort (s : State) : Result :=
  if s.tx.status.phase = .busy then .next (withTx s { s.tx with status := statusAbort s.tx.status })
  else .next s

end Sys2Proof.Machine
end

