-- ==== Sys2Proof/Machine/FrameTypes.lean ====
section
/-! DEFINITION. The frame types once the LEN field is complete (R159 to R161). Their P/F bit is read from `rx_type`
when the frame is complete (R166, R167). The encode halves of SABM and UIH stand in Build.lean. -/

namespace Sys2Proof.Machine

/-- R161: what UA, DM, DISC and UI share: the length value is not checked. -/
def rejectFrameType (s : State) : Result := .next (raise .rx .unsupportedOperation s)

/-- R159: SABM takes the length value 0 only. -/
def execSabm (_pf : PollFinal) (s : State) : Result :=
  if s.rx.len ≠ 0 then .next (raise .rx .invalidInformationField s) else .next (rxGoto .fcs s)

/-- R160: UIH takes the length values 1 to 254. -/
def execUih (_pf : PollFinal) (s : State) : Result :=
  if s.rx.len.toNat > maxInfoLen then .next (raise .rx .invalidFrameFormat s)
  else if s.rx.len = 0 then .next (raise .rx .invalidFrameFormat s)
  else .next (withRx s { s.rx with cnt := 0, state := .info })

/-- R161 -/
def execUa (_pf : PollFinal) (s : State) : Result := rejectFrameType s

/-- R161 -/
def execDm (_pf : PollFinal) (s : State) : Result := rejectFrameType s

/-- R161 -/
def execDisc (_pf : PollFinal) (s : State) : Result := rejectFrameType s

/-- R161 -/
def execUi (_pf : PollFinal) (s : State) : Result := rejectFrameType s

end Sys2Proof.Machine
end

