-- ==== Sys2Proof/Machine/InfoTypes.lean ====
section
/-! DEFINITION. The information types once the payload is complete (R163, R230): each reads its payload from
`rx_buf` by its own read rule, and either raises or stores `rx_info` and goes on to FCS. The encode halves stand
in InfoFields.lean and Build.lean. -/

namespace Sys2Proof.Machine

/-- R163, R230: what the nine implemented types share. -/
def acceptInfo (cr : CommandResponse) (read : Except CmuxError InfoBody) (s : State) : Result :=
  match read with
  | .error e => .next (raise .rx e s)
  | .ok body => .next (withRx s { s.rx with info := ⟨cr, body⟩, state := .fcs })

/-- R230: the payload of the information field in `rx_buf`, read by the rule `rule`. -/
def readInfo (cr : CommandResponse) (rule : List Byte → Except CmuxError InfoBody) (s : State) : Result :=
  match rxPayload s with
  | none => .fault .rxInfoLength
  | some P => acceptInfo cr (rule P) s

/-- R250, R251: PSC and Test are rejected whatever their payload. -/
def rejectInfoType (s : State) : Result := .next (raise .rx .unsupportedOperation s)

/-- R232 -/
def execPn (cr : CommandResponse) (s : State) : Result := readInfo cr readPn s

/-- R250 -/
def execPsc (_cr : CommandResponse) (s : State) : Result := rejectInfoType s

/-- R234 -/
def execCld (cr : CommandResponse) (s : State) : Result := readInfo cr readCld s

/-- R251 -/
def execTest (_cr : CommandResponse) (s : State) : Result := rejectInfoType s

/-- R238 -/
def execFcOn (cr : CommandResponse) (s : State) : Result := readInfo cr readFcOn s

/-- R236 -/
def execFcOff (cr : CommandResponse) (s : State) : Result := readInfo cr readFcOff s

/-- R240 -/
def execMsc (cr : CommandResponse) (s : State) : Result := readInfo cr readMsc s

/-- R242 -/
def execNsc (cr : CommandResponse) (s : State) : Result := readInfo cr (readNsc s.params.infoTags) s

/-- R244 -/
def execRpn (cr : CommandResponse) (s : State) : Result := readInfo cr readRpn s

/-- R246 -/
def execRls (cr : CommandResponse) (s : State) : Result := readInfo cr readRls s

/-- R248 -/
def execSnc (cr : CommandResponse) (s : State) : Result := readInfo cr readSnc s

end Sys2Proof.Machine
end

