-- ==== Sys2Proof/Machine/Dispatch.lean ====
section
/-! DEFINITION. One arm per instruction. -/

namespace Sys2Proof.Machine

-- A command acts when the host writes it (R374), a frame type once its LEN field is complete (R157, R158),
-- an information type once its payload is complete (R163).
def exec (i : Instr) (s : State) : Host.Outcome State Fault Refusal :=
  match i with
  | .nop => Sys2Proof.Machine.execNop s
  | .rxStart => Sys2Proof.Machine.execRxStart s
  | .rxAbort => Sys2Proof.Machine.execRxAbort s
  | .txStart => Sys2Proof.Machine.execTxStart s
  | .txAbort => Sys2Proof.Machine.execTxAbort s
  | .sabm pf => Sys2Proof.Machine.execSabm pf s
  | .ua pf => Sys2Proof.Machine.execUa pf s
  | .dm pf => Sys2Proof.Machine.execDm pf s
  | .disc pf => Sys2Proof.Machine.execDisc pf s
  | .uih pf => Sys2Proof.Machine.execUih pf s
  | .ui pf => Sys2Proof.Machine.execUi pf s
  | .pn cr => Sys2Proof.Machine.execPn cr s
  | .psc cr => Sys2Proof.Machine.execPsc cr s
  | .cld cr => Sys2Proof.Machine.execCld cr s
  | .test cr => Sys2Proof.Machine.execTest cr s
  | .fcOn cr => Sys2Proof.Machine.execFcOn cr s
  | .fcOff cr => Sys2Proof.Machine.execFcOff cr s
  | .msc cr => Sys2Proof.Machine.execMsc cr s
  | .nsc cr => Sys2Proof.Machine.execNsc cr s
  | .rpn cr => Sys2Proof.Machine.execRpn cr s
  | .rls cr => Sys2Proof.Machine.execRls cr s
  | .snc cr => Sys2Proof.Machine.execSnc cr s

end Sys2Proof.Machine
end

