-- ==== Sys2Proof/Machine/HostPort.lean ====
section
/-! DEFINITION. The host interface registers as the host sees them (R32 to R36, R342): one host action a step. -/

namespace Sys2Proof.Machine

/-- R32 to R36: the register a host action reads or writes. -/
def hostRegister (a : HostAction) : HostRegister :=
  match a with
  | .writeCmd _ | .readCmd => .cmd
  | .writeRxStatus | .readRxStatus => .rxStatus
  | .writeRxResult | .readRxResult => .rxResult
  | .writeTxDesc _ | .readTxDesc => .txDesc
  | .writeTxStatus | .readTxStatus => .txStatus

/-- R75: the address at which the platform places the register of a host action, by `REG_MAP`. No rule reads it: an
access is known by its register (log 21). -/
def hostAddress (a : HostAction) : Nat := Config.regMap (hostRegister a)

/-- D35: the bits of a descriptor under `DESC_LAYOUT`, where the platform has one. No rule reads them: RX_RESULT and
TX_DESC hold the descriptor itself (R59; log 21). -/
def packedDescriptor (f : Frame) : Option (List Bool) := Config.descLayout.map fun pack => pack f

/-- R32, R122, R124: a write of `c` to CMD issues the command `c`; a reserved code is refused. -/
def hostWriteCmd (c : BitVec 3) (s : State) : Result :=
  match decodeCmd c with
  | .ok i => exec i s
  | .error _ => .refused .hostProtocol

/-- R35: a write to TX_DESC, at any time; it does not touch a running transaction (R376). -/
def hostWriteTxDesc (d : Frame) (s : State) : Result := .next (withTx s { s.tx with desc := some d })

/-- R33, R36: a read of a status register; it shows the free value where IO_KIND is unspecified (I7; log 11). -/
def hostReadStatus (st : Status) (s : State) : Result :=
  .next (nextFree (withLastRead s (statusRead s.freeCount st)))

/-- R34: a read of RX_RESULT, refused unless PHASE is DONE. -/
def hostReadRxResult (s : State) : Result :=
  match s.rx.status.phase, s.rx.result with
  | .done, some f => .next (withLastRead s (.frame f))
  | _, _ => .refused .resultNotValid

/-- R35: a read of TX_DESC; before the first write the spec states no value and the read shows the free value
(log 12). -/
def hostReadTxDesc (s : State) : Result :=
  match s.tx.desc with
  | some d => .next (withLastRead s (.frame d))
  | none => .next (nextFree (withLastRead s (.frame (Config.freeFrame s.freeCount))))

/-- R32 to R36, R342: one host action. -/
def hostAct (a : HostAction) (s : State) : Result :=
  match a with
  | .writeCmd c => hostWriteCmd c s
  | .writeTxDesc d => hostWriteTxDesc d s
  | .writeRxStatus => .refused .hostProtocol
  | .writeRxResult => .refused .hostProtocol
  | .writeTxStatus => .refused .hostProtocol
  | .readCmd => .refused .hostProtocol
  | .readRxStatus => hostReadStatus s.rx.status s
  | .readRxResult => hostReadRxResult s
  | .readTxDesc => hostReadTxDesc s
  | .readTxStatus => hostReadStatus s.tx.status s

/-- R7: a step of the host: its next action, if it has one. -/
def hostStep (s : State) : Result :=
  match s.host.pending with
  | [] => .next s
  | a :: rest => hostAct a (withPending s rest)

end Sys2Proof.Machine
end

