-- ==== Sys2Proof/Machine/RxSteps.lean ====
section
/-! DEFINITION. The RX engine's octet steps (R151 to R168): one source event a step. The frame type and the
information type are decoded here, and their instruction is run by `exec` once its operand octets are in. -/

namespace Sys2Proof.Machine

/-- R152: HUNT on a byte: every octet but the flag is discarded; no flag octet is CRC-covered (C14). -/
def rxHuntOctet (b : Byte) (s : State) : Result :=
  if b = flag then .next (withRx s { s.rx with crc := crcInit, state := .addr })
  else .next (rxGoto .hunt s)

/-- R155: ADDR on a byte: no value is rejected, and 0xF9 is an address like any other (R171). -/
def rxAddrOctet (b : Byte) (s : State) : Result :=
  .next (withRx s { s.rx with addr := b, crc := crcUpdate s.rx.crc b, state := .type })

/-- R156: TYPE on a byte: an unknown frame type is rejected before LEN is read. -/
def rxTypeOctet (b : Byte) (s : State) : Result :=
  match classifyFrameType b with
  | none => .next (raise .rx .invalidFrameFormat (withRx s { s.rx with typ := b }))
  | some ft =>
    .next (withRx s { s.rx with typ := b, ftype := ft, crc := crcUpdate s.rx.crc b, state := .len1 })

/-- R157, R158: "then apply R159, R160 or R161 by rx_ftype": the frame type's instruction runs on the complete length. -/
def rxRunFrameType (s : State) : Result := exec (frameInstr s.rx.ftype (pfOf s.rx.typ)) s

/-- R157: LEN1 on a byte: EA = 1 completes the length, EA = 0 waits for the second octet. -/
def rxLen1Octet (b : Byte) (s : State) : Result :=
  if b.getLsbD 0 then rxRunFrameType (withRx s { s.rx with crc := crcUpdate s.rx.crc b, len := frameLen1 b })
  else .next (withRx s { s.rx with crc := crcUpdate s.rx.crc b, len1 := b, state := .len2 })

/-- R158: LEN2 on a byte: bit 0 is not checked (C15). -/
def rxLen2Octet (b : Byte) (s : State) : Result :=
  rxRunFrameType (withRx s { s.rx with crc := crcUpdate s.rx.crc b, len := frameLen2 s.rx.len1 b })

/-- R163, R230: the information field is complete: its tag octet is decoded and its instruction runs. -/
def rxRunInfoType (s : State) : Result :=
  match decodeInfoTag s.params.infoTags (rxTagOctet s) with
  | .error _ => .next (raise .rx .invalidFrameFormat s)
  | .ok i => exec i s

/-- R162: "if rx_cnt == rx_len: apply R163 else: rx_state <- INFO". -/
def rxCheckInfoEnd (s : State) : Result :=
  if s.rx.cnt.toNat = s.rx.len.toNat then rxRunInfoType s else .next (rxGoto .info s)

/-- R162: the octet is stored, folded into the CRC and counted; an octet 0xF9 is data (R172). -/
def rxStoreInfo (b : Byte) (s : State) : State :=
  withRx s { s.rx with
    buf := memWrite s.rx.buf s.rx.cnt.toNat b
    crc := crcUpdate s.rx.crc b
    cnt := s.rx.cnt + 1 }

/-- R162: INFO on a byte. -/
def rxInfoOctet (b : Byte) (s : State) : Result :=
  if s.rx.cnt.toNat < rxBufLen then rxCheckInfoEnd (rxStoreInfo b s) else .fault .rxBufIndex

/-- R164: FCS on a byte. -/
def rxFcsOctet (b : Byte) (s : State) : Result :=
  if b ≠ fcsOf s.rx.crc then .next (raise .rx .crcMismatch s) else .next (rxGoto .close s)

/-- R166: the SABM result; the C/R bit of the address is dropped. -/
def rxSabmFrame (r : RxEngine) : Frame := .sabm (upper6 r.addr) (pfOf r.typ)

/-- R167: the UIH result. -/
def rxUihFrame (r : RxEngine) : Frame := .uih (upper6 r.addr) (crOf r.addr) (pfOf r.typ) r.info

/-- R165: the frame of a decode that reached its closing flag: R166 if `rx_ftype` is Sabm, else R167. -/
def rxFrame (r : RxEngine) : Frame := if r.ftype = .sabm then rxSabmFrame r else rxUihFrame r

/-- R165: CLOSE on a byte. -/
def rxCloseOctet (b : Byte) (s : State) : Result :=
  if b ≠ flag then .next (raise .rx .invalidFrameFormat s) else .next (rxComplete (rxFrame s.rx) s)

/-- R151: the rule for the current `rx_state`, applied to an octet. -/
def rxOctet (b : Byte) (s : State) : Result :=
  match s.rx.state with
  | .hunt => rxHuntOctet b s
  | .addr => rxAddrOctet b s
  | .type => rxTypeOctet b s
  | .len1 => rxLen1Octet b s
  | .len2 => rxLen2Octet b s
  | .info => rxInfoOctet b s
  | .fcs => rxFcsOctet b s
  | .close => rxCloseOctet b s

/-- R153, R154: the kind reported when the source ends. -/
def rxEofKind (s : State) : IoKind := if s.rx.state = .hunt then .brokenPipe else s.params.ioKindEof

/-- R151 to R165: one source event. -/
def rxEvent (e : SrcEvent) (s : State) : Result :=
  match e with
  | .byte b => rxOctet b s
  | .eof => .next (raise .rx (.io (rxEofKind s)) s)
  | .fault k => .next (raise .rx (.io k) s)

/-- R151: a step of the RX engine: while BUSY it takes the source's next answer; without one it waits, and while not
BUSY it consumes nothing. -/
def rxStep (s : State) : Result :=
  if s.rx.status.phase = .busy then
    match s.source with
    | [] => .next s
    | e :: rest => rxEvent e (withSource s rest)
  else .next s

end Sys2Proof.Machine
end

