-- ==== Sys2Proof/Machine/TxSteps.lean ====
section
/-! DEFINITION. The TX engine's emit steps (R207 to R209): one sink answer a step. -/

namespace Sys2Proof.Machine

/-- R207: "if tx_idx == tx_len: complete()". -/
def txCheckEnd (s : State) : State := if s.tx.idx = s.tx.len then txComplete s else s

/-- R207: the sink accepts octet `b`. -/
def txAccept (b : Byte) (s : State) : State :=
  txCheckEnd (withTx { s with sinkOctets := s.sinkOctets ++ [b] } { s.tx with idx := s.tx.idx + 1 })

/-- R207, R208: one offer of `tx_buf[tx_idx]` and the sink's answer to it. -/
def txEmit (r : SinkAnswer) (s : State) : Result :=
  if s.tx.idx.toNat < txBufLen then
    match r with
    | .ok => .next (txAccept (memRead s.tx.buf s.tx.idx.toNat) s)
    | .fault k => .next (raise .tx (.io k) s)
  else .fault .txBufIndex

/-- R207: a step of the TX engine: while BUSY with octets left it takes the sink's next answer; without one it
waits, and while not BUSY it emits nothing. -/
def txStep (s : State) : Result :=
  if s.tx.status.phase = .busy ∧ s.tx.idx.toNat < s.tx.len.toNat then
    match s.sinkAnswers with
    | [] => .next s
    | r :: rest => txEmit r { s with sinkAnswers := rest }
  else .next s

end Sys2Proof.Machine
end

