-- ==== Sys2Proof/Machine/Fetch.lean ====
section
/-! DEFINITION. A step of one agent, and placing a code of the opcode table where the machine reads its next one
(log 20). The block fetches nothing from a stored program (R90, R372): a command is written by the host, a frame
type and an information type arrive in the RX stream. -/

namespace Sys2Proof.Machine

/-- R7, R370: a step of the agent `a`. -/
def agentStep (a : Agent) (s : State) : Result :=
  match a with
  | .host => hostStep s
  | .rx => rxStep s
  | .tx => txStep s
  | .reset => .next (resetBlock s)

/-- The host is about to write the command code `w`. -/
def placeCmd (w : Byte) (s : State) : State :=
  { s with
    host := { s.host with pending := .writeCmd (w.setWidth 3) :: s.host.pending }
    schedule := .host :: s.schedule }

/-- The RX engine is in a frame of type octet `w`, about to take the second LEN octet, 0x00, of the length 0. -/
def placeFrameType (w : Byte) (s : State) : State :=
  { s with
    rx := { s.rx with
      status := statusStart s.rx.status
      result := none
      state := .len2
      typ := w
      ftype := (classifyFrameType w).getD .sabm
      len1 := 0 }
    source := .byte 0x00#8 :: s.source
    schedule := .rx :: s.schedule }

/-- R231: the smallest payload length an information type accepts. -/
def leastPayload : InfoType → Nat
  | .pn | .psc | .cld | .test | .fcOn | .fcOff => 0
  | .nsc | .rpn | .snc => 1
  | .msc | .rls => 2

/-- The RX engine is in a UIH frame whose information field is the tag octet `w` and the smallest payload its type
accepts, all 0x00, about to take the last octet of that field. -/
def placeInfoTag (w : Byte) (s : State) : State :=
  let p := ((classifyInfoTag s.params.infoTags w).map leastPayload).getD 0
  { s with
    rx := { s.rx with
      status := statusStart s.rx.status
      result := none
      state := .info
      typ := typeOctet .uih .final
      ftype := .uih
      len := BitVec.ofNat 14 (p + 1)
      cnt := BitVec.ofNat 8 p
      buf := if p = 0 then [] else memWrite [] 0 w }
    source := .byte (if p = 0 then w else 0x00#8) :: s.source
    schedule := .rx :: s.schedule }

/-- The code `w` placed in its slot, so that the very next step runs it. -/
def placeCode (w : Byte) (s : State) : State :=
  match tableSlot w with
  | .cmd => placeCmd w s
  | .frameType => placeFrameType w s
  | .infoTag => placeInfoTag w s

end Sys2Proof.Machine
end

