-- ==== Sys2Proof/Machine/Step.lean ====
section
/-! DEFINITION. One step of the machine: the next agent of the schedule moves (R84). With no agent scheduled nothing
happens: the block waits (R372; log 6). -/

namespace Sys2Proof.Machine

/-- R7, R84: one step. -/
def step (s : State) : Host.Outcome State Fault Refusal :=
  match s.schedule with
  | [] => .next s
  | a :: rest => agentStep a (withSchedule s rest)

/-- A code of spec/opcode_table.json placed where the next step reads its instruction (log 20). -/
def State.withFetchWord (s : State) (_nbits w : Nat) : State := placeCode (BitVec.ofNat 8 w) s

end Sys2Proof.Machine
end

