-- ==== Sys2Proof/Safety.lean ====
section
/-! DEFINITION. What counts as a sound state, in the terms the statements use: the legal values of the status
registers (R33, R37, R332), the result's validity (R34), the progress of a running transaction (R40 to R47), the
buffers' form and bounds (R73, R74); and the normal form of a descriptor under a round trip (R213). -/

namespace Sys2Proof.Machine

/-- R33, R37, R332: ERR is nonzero exactly in PHASE ERROR, and at most `maxErr`. -/
def statusLegal (maxErr : Nat) (st : Status) : Bool :=
  (st.phase == .error) == (st.err != 0) && decide (st.err.toNat ≤ maxErr)

/-- R156: `rx_ftype` is the classification of `rx_type`. -/
def rxTypeKnown (r : RxEngine) : Bool := classifyFrameType r.typ == some r.ftype

/-- R41, R162: the position of a running decode agrees with its working registers. -/
def rxProgress (r : RxEngine) : Bool :=
  match r.state with
  | .hunt | .addr | .type => true
  | .len1 => rxTypeKnown r
  | .len2 => rxTypeKnown r && !r.len1.getLsbD 0
  | .info => rxTypeKnown r && r.ftype == .uih && decide (r.len.toNat ≤ maxInfoLen) && decide (r.cnt.toNat < r.len.toNat)
  | .fcs | .close => rxTypeKnown r && (r.ftype == .sabm || (r.ftype == .uih && r.info.body.wellFormed))

/-- R34: RX_RESULT is valid exactly when PHASE is DONE, and holds a valid descriptor (R60). -/
def resultLegal (r : RxEngine) : Bool :=
  match r.result with
  | none => r.status.phase != .done
  | some f => r.status.phase == .done && f.wellFormed

/-- The RX engine is sound. -/
def rxSound (r : RxEngine) : Bool :=
  statusLegal 5 r.status && resultLegal r && (r.status.phase != .busy || rxProgress r)
    && Memory.wf r.buf && Memory.within rxBufLen r.buf

/-- R45, R47: a running encode has an octet left to emit, of the 6 to 261 in `tx_buf`. -/
def txProgress (t : TxEngine) : Bool :=
  decide (t.idx.toNat < t.len.toNat) && decide (6 ≤ t.len.toNat) && decide (t.len.toNat ≤ txBufLen)

/-- The TX engine is sound: the one error a TX transaction raises is Io (R338). -/
def txSound (t : TxEngine) : Bool :=
  statusLegal 1 t.status && (t.status.phase != .busy || txProgress t)
    && Memory.wf t.buf && Memory.within txBufLen t.buf

/-- The invariant every step keeps. -/
abbrev State.Inv (s : State) : Prop := rxSound s.rx = true ∧ txSound s.tx = true

/-- R213: `norm` on a body: the EA bits of an MSC's Control and Break are 1. -/
def normBody : InfoBody → InfoBody
  | .msc dlci dlciCr control brk => .msc dlci dlciCr (control ||| 0x01#8) (brk.map fun k => k ||| 0x01#8)
  | .pn => .pn
  | .cld => .cld
  | .fcOff => .fcOff
  | .fcOn => .fcOn
  | .nsc commandType commandCr => .nsc commandType commandCr
  | .rpn raw => .rpn raw
  | .rls dlci dlciCr status => .rls dlci dlciCr status
  | .snc raw => .snc raw

/-- R213: `norm`, the identity except on MSC bodies (C13). -/
def normFrame : Frame → Frame
  | .sabm id pf => .sabm id pf
  | .uih id cr pf info => .uih id cr pf ⟨info.cr, normBody info.body⟩

/-- A source that offers these octets, one event each. -/
def srcOctets (octets : List Byte) : List SrcEvent := octets.map .byte

/-- R151: the RX engine is scheduled, is BUSY in `q`, and the source answers `e`; `src` and `sch` are what is left of
the source's answers and of the schedule. -/
abbrev RxTakes (s : State) (q : RxState) (e : SrcEvent) (src : List SrcEvent) (sch : List Agent) : Prop :=
  s.schedule = .rx :: sch ∧ s.source = e :: src ∧ s.rx.status.phase = .busy ∧ s.rx.state = q

/-- R207: the TX engine is scheduled, is BUSY with octets left, and the sink answers `r`; `ans` and `sch` are what is
left of the sink's answers and of the schedule. -/
abbrev TxTakes (s : State) (r : SinkAnswer) (ans : List SinkAnswer) (sch : List Agent) : Prop :=
  s.schedule = .tx :: sch ∧ s.sinkAnswers = r :: ans ∧ s.tx.status.phase = .busy ∧ s.tx.idx.toNat < s.tx.len.toNat

/-- R32 to R36: the host is scheduled and its next action is `a`; `acts` and `sch` are what is left of its actions and
of the schedule. -/
abbrev HostActs (s : State) (a : HostAction) (acts : List HostAction) (sch : List Agent) : Prop :=
  s.schedule = .host :: sch ∧ s.host.pending = a :: acts

/-- The state in which the RX engine applies its rule: the source's answer and the schedule's entry are taken. -/
def rxTaken (s : State) (src : List SrcEvent) (sch : List Agent) : State := { s with source := src, schedule := sch }

/-- The state in which the host's action is done: the action and the schedule's entry are taken. -/
def hostTaken (s : State) (acts : List HostAction) (sch : List Agent) : State :=
  { s with host := { s.host with pending := acts }, schedule := sch }

end Sys2Proof.Machine
end

