-- ==== Sys2Proof/Certificates/Slice0/Obligations.lean ====
section
/-! DEFINITION. The statements for the provers. A statement that gives the next state as an equation gives the frame
with it: every field that the record update does not name is as before, each octet of rx_buf and tx_buf included. In
each of them the stored IO_KIND of a status register changes with an Io error only: while ERR is not 1 the spec admits
any value there (I7), and that the stored one stays is the model's choice (log 11), which no host read can see. -/

open Sys2Proof Sys2Proof.Machine

/-! ## Reset -/

/-- R63: the values after reset that the rule states. -/
def Obligations.ResetLeavesStatedRegisters : Prop :=
  State.reset.rx.status.phase = .idle ∧ State.reset.tx.status.phase = .idle
    ∧ State.reset.rx.status.err = 0 ∧ State.reset.tx.status.err = 0
    ∧ State.reset.rx.result = none ∧ State.reset.tx.desc = none

/-- R370, R371: reset in any state, mid-transaction too, takes every stated register to its reset value, and touches
neither stream nor the parameters. That the host's outstanding actions stay is the model's choice (log 19). -/
def Obligations.ResetEventDropsTransactions : Prop :=
  ∀ (s : State) (sch : List Agent), s.schedule = .reset :: sch →
    ∃ t, step s = .next t
      ∧ t.rx.status.phase = .idle ∧ t.rx.status.err = 0 ∧ t.rx.result = none
      ∧ t.tx.status.phase = .idle ∧ t.tx.status.err = 0 ∧ t.tx.desc = none
      ∧ t.source = s.source ∧ t.sinkAnswers = s.sinkAnswers ∧ t.sinkOctets = s.sinkOctets
      ∧ t.params = s.params ∧ t.host = s.host ∧ t.schedule = sch

/-! ## Host commands -/

/-- R123: NOP has no effect on any state: `exec` gives the same state, and the step that writes 0b000 to CMD only takes
the host's action and the schedule's entry. -/
def Obligations.NopChangesNothing : Prop :=
  (∀ s : State, exec .nop s = .next s) ∧
  ∀ (s : State) (acts : List HostAction) (sch : List Agent), HostActs s (.writeCmd 0b000#3) acts sch →
    step s = .next { s with host := { s.host with pending := acts }, schedule := sch }

/-- R150: RX_START when RX is not BUSY: BUSY, ERR 0, result invalid, every octet of rx_buf 0x00, rx_state HUNT, no
octet consumed, nothing else changed; when RX is BUSY it is refused. That IO_KIND keeps its value is the model's
choice (log 11). The refusal is R38's. -/
def Obligations.RxStartBeginsHunt : Prop :=
  ∀ s : State,
    (s.rx.status.phase ≠ .busy → ∃ buf : Memory, (∀ i, memRead buf i = 0x00#8) ∧
      exec .rxStart s = .next { s with rx := { s.rx with
        status := ⟨.busy, 0, s.rx.status.ioKind⟩, result := none, buf := buf, state := .hunt } }) ∧
    (s.rx.status.phase = .busy → exec .rxStart s = .refused .hostProtocol)

/-- R174, R38: RX_ABORT of a BUSY engine: IDLE, ERR 0, result invalid, the source as it was, nothing else changed; no
effect when not BUSY. The model's choices: the working registers keep their values, as R174's "State written" has it
(log 16), and IO_KIND keeps its value (log 11). That an ABORT of an engine that is not BUSY keeps a completed result
is the model's reading of R174 and R381 against R375 (log 30). -/
def Obligations.RxAbortStopsDecode : Prop :=
  ∀ s : State,
    (s.rx.status.phase = .busy → exec .rxAbort s = .next { s with rx := { s.rx with
        status := ⟨.idle, 0, s.rx.status.ioKind⟩, result := none } }) ∧
    (s.rx.status.phase ≠ .busy → exec .rxAbort s = .next s)

/-- R200, R44, R45, R74: TX_START with a valid descriptor when TX is not BUSY: the frame that `build` gives stands in tx_buf from
index 0, tx_len is its length, 6 to 261, tx_idx is 0, TX is BUSY with ERR 0; no octet of tx_buf past the frame, and
nothing outside the TX engine, changes. That IO_KIND keeps its value is the model's choice (log 11). -/
def Obligations.TxStartLatchesFrame : Prop :=
  ∀ (s : State) (d : Frame), s.tx.status.phase ≠ .busy → s.tx.desc = some d → d.wellFormed = true →
    Memory.wf s.tx.buf = true →
    ∃ octets buf, build s.params.infoTags d = .ok octets
      ∧ 6 ≤ octets.length ∧ octets.length ≤ 261
      ∧ (∀ i, i < octets.length → memRead buf i = octets.getD i 0)
      ∧ (∀ i, octets.length ≤ i → memRead buf i = memRead s.tx.buf i)
      ∧ exec .txStart s = .next { s with tx := { s.tx with
          status := ⟨.busy, 0, s.tx.status.ioKind⟩, buf := buf, len := BitVec.ofNat 9 octets.length, idx := 0 } }

/-- R200, R38, R201, R35, R342: the two conditions of TX_START, in their order: while BUSY it is refused as
HostProtocol; otherwise a never written or an invalid descriptor is refused as BadDescriptor. A refusal answers no
next state. -/
def Obligations.TxStartRefusals : Prop :=
  ∀ s : State,
    (s.tx.status.phase = .busy → exec .txStart s = .refused .hostProtocol) ∧
    (s.tx.status.phase ≠ .busy → s.tx.desc = none → exec .txStart s = .refused .badDescriptor) ∧
    (∀ d, s.tx.status.phase ≠ .busy → s.tx.desc = some d → d.wellFormed = false →
      exec .txStart s = .refused .badDescriptor)

/-- R210: TX_ABORT of a BUSY engine: IDLE, ERR 0, the octets already accepted stay emitted, nothing else changed; no
effect when not BUSY. That tx_buf, tx_len and tx_idx (log 16) and IO_KIND (log 11) keep their values is the model's
choice. -/
def Obligations.TxAbortStopsEncode : Prop :=
  ∀ s : State,
    (s.tx.status.phase = .busy → exec .txAbort s = .next { s with tx := { s.tx with
        status := ⟨.idle, 0, s.tx.status.ioKind⟩ } }) ∧
    (s.tx.status.phase ≠ .busy → exec .txAbort s = .next s)

/-! ## Frame types -/

/-- R159: SABM goes on to FCS for the length 0, and raises InvalidInformationField for every other length. That an
error leaves the working registers (log 16) and IO_KIND (log 11) as they were is the model's choice. -/
def Obligations.SabmTakesLengthZero : Prop :=
  ∀ (s : State) (pf : PollFinal),
    (s.rx.len = 0 → exec (.sabm pf) s = .next { s with rx := { s.rx with state := .fcs } }) ∧
    (s.rx.len ≠ 0 → exec (.sabm pf) s = .next { s with rx := { s.rx with
        status := ⟨.error, 5, s.rx.status.ioKind⟩, result := none } })

/-- R160, R173: UIH goes on to INFO with rx_cnt 0 for the lengths 1 to 254, and raises InvalidFrameFormat for 0 and
for every length above 254; no information octet is taken in either case. That an error leaves the working registers
(log 16) and IO_KIND (log 11) as they were is the model's choice. -/
def Obligations.UihTakesLengths1To254 : Prop :=
  ∀ (s : State) (pf : PollFinal),
    (1 ≤ s.rx.len.toNat ∧ s.rx.len.toNat ≤ 254 →
      exec (.uih pf) s = .next { s with rx := { s.rx with cnt := 0, state := .info } }) ∧
    (s.rx.len.toNat = 0 ∨ 254 < s.rx.len.toNat →
      exec (.uih pf) s = .next { s with rx := { s.rx with
        status := ⟨.error, 3, s.rx.status.ioKind⟩, result := none } })

/-- R161: UA, DM, DISC and UI raise UnsupportedOperation whatever the length value. That an error leaves the working
registers (log 16) and IO_KIND (log 11) as they were is the model's choice. -/
def Obligations.OtherFrameTypesUnsupported : Prop :=
  ∀ (s : State) (pf : PollFinal), ∀ i ∈ [Instr.ua pf, .dm pf, .disc pf, .ui pf],
    exec i s = .next { s with rx := { s.rx with status := ⟨.error, 4, s.rx.status.ioKind⟩, result := none } }

/-! ## Information types -/

/-- R232, R234, R236, R238: PN, CLD, FCoff and FCon accept an empty payload and raise InvalidInformationField for
every other payload that fits the buffer. That an error leaves the working registers (log 16) and IO_KIND (log 11) as
they were is the model's choice. -/
def Obligations.EmptyPayloadTypesRead : Prop :=
  ∀ (s : State) (cr : CommandResponse),
    ∀ p ∈ [(Instr.pn cr, InfoBody.pn), (.cld cr, .cld), (.fcOff cr, .fcOff), (.fcOn cr, .fcOn)],
      (s.rx.len.toNat = 1 →
        exec p.1 s = .next { s with rx := { s.rx with info := ⟨cr, p.2⟩, state := .fcs } }) ∧
      (2 ≤ s.rx.len.toNat ∧ s.rx.len.toNat ≤ 254 →
        exec p.1 s = .next { s with rx := { s.rx with status := ⟨.error, 5, s.rx.status.ioKind⟩, result := none } })

/-- R240: MSC reads a DLCI octet, a Control octet and an optional Break octet, all 8 bits of the last two; every other
payload length raises InvalidInformationField. That an error leaves the working registers (log 16) and IO_KIND (log
11) as they were is the model's choice. -/
def Obligations.MscReadsControlAndBreak : Prop :=
  ∀ (s : State) (cr : CommandResponse),
    (s.rx.len.toNat = 3 → exec (.msc cr) s = .next { s with rx := { s.rx with
        info := ⟨cr, .msc ((memRead s.rx.buf 1 >>> 2).setWidth 6)
          (if (memRead s.rx.buf 1).getLsbD 1 then .command else .response) (memRead s.rx.buf 2) none⟩
        state := .fcs } }) ∧
    (s.rx.len.toNat = 4 → exec (.msc cr) s = .next { s with rx := { s.rx with
        info := ⟨cr, .msc ((memRead s.rx.buf 1 >>> 2).setWidth 6)
          (if (memRead s.rx.buf 1).getLsbD 1 then .command else .response) (memRead s.rx.buf 2)
          (some (memRead s.rx.buf 3))⟩
        state := .fcs } }) ∧
    (1 ≤ s.rx.len.toNat ∧ s.rx.len.toNat ≤ 254 ∧ s.rx.len.toNat ≠ 3 ∧ s.rx.len.toNat ≠ 4 →
      exec (.msc cr) s = .next { s with rx := { s.rx with
        status := ⟨.error, 5, s.rx.status.ioKind⟩, result := none } })

/-- R242: NSC reads one octet that names any of the eleven types; the shape is checked first, and an octet that names
none raises InvalidFrameFormat. That an error leaves the working registers (log 16) and IO_KIND (log 11) as they were
is the model's choice. -/
def Obligations.NscReadsCommandType : Prop :=
  ∀ (s : State) (cr : CommandResponse), s.params.wellFormed = true →
    (∀ ct, s.rx.len.toNat = 2 → infoTagOf s.params.infoTags ct = memRead s.rx.buf 1 &&& 0xFC#8 →
      exec (.nsc cr) s = .next { s with rx := { s.rx with
        info := ⟨cr, .nsc ct (if (memRead s.rx.buf 1).getLsbD 1 then .command else .response)⟩, state := .fcs } }) ∧
    (s.rx.len.toNat = 2 → (∀ ct, infoTagOf s.params.infoTags ct ≠ memRead s.rx.buf 1 &&& 0xFC#8) →
      exec (.nsc cr) s = .next { s with rx := { s.rx with
        status := ⟨.error, 3, s.rx.status.ioKind⟩, result := none } }) ∧
    (1 ≤ s.rx.len.toNat ∧ s.rx.len.toNat ≤ 254 ∧ s.rx.len.toNat ≠ 2 →
      exec (.nsc cr) s = .next { s with rx := { s.rx with
        status := ⟨.error, 5, s.rx.status.ioKind⟩, result := none } })

/-- R244, R248: RPN and SNC keep their 1 to 253 payload octets verbatim, and raise InvalidInformationField for an
empty payload. That an error leaves the working registers (log 16) and IO_KIND (log 11) as they were is the model's
choice. -/
def Obligations.RpnSncKeepOctets : Prop :=
  ∀ (s : State) (cr : CommandResponse),
    ∀ p ∈ [(Instr.rpn cr, InfoBody.rpn), (.snc cr, InfoBody.snc)],
      (∀ raw : List Byte, 2 ≤ s.rx.len.toNat ∧ s.rx.len.toNat ≤ 254 → raw.length + 1 = s.rx.len.toNat →
        (∀ i, i < raw.length → raw.getD i 0 = memRead s.rx.buf (1 + i)) →
        exec p.1 s = .next { s with rx := { s.rx with info := ⟨cr, p.2 raw⟩, state := .fcs } }) ∧
      (s.rx.len.toNat = 1 →
        exec p.1 s = .next { s with rx := { s.rx with status := ⟨.error, 5, s.rx.status.ioKind⟩, result := none } })

/-- R246: RLS reads a DLCI octet and a RemoteLineStatus octet; every other payload length raises
InvalidInformationField. That an error leaves the working registers (log 16) and IO_KIND (log 11) as they were is the
model's choice. -/
def Obligations.RlsReadsLineStatus : Prop :=
  ∀ (s : State) (cr : CommandResponse),
    (s.rx.len.toNat = 3 → exec (.rls cr) s = .next { s with rx := { s.rx with
        info := ⟨cr, .rls ((memRead s.rx.buf 1 >>> 2).setWidth 6)
          (if (memRead s.rx.buf 1).getLsbD 1 then .command else .response) (memRead s.rx.buf 2)⟩
        state := .fcs } }) ∧
    (1 ≤ s.rx.len.toNat ∧ s.rx.len.toNat ≤ 254 ∧ s.rx.len.toNat ≠ 3 →
      exec (.rls cr) s = .next { s with rx := { s.rx with
        status := ⟨.error, 5, s.rx.status.ioKind⟩, result := none } })

/-- R250, R251: PSC and Test raise UnsupportedOperation whatever their payload. That an error leaves the working
registers (log 16) and IO_KIND (log 11) as they were is the model's choice. -/
def Obligations.PscTestUnsupported : Prop :=
  ∀ (s : State) (cr : CommandResponse), ∀ i ∈ [Instr.psc cr, .test cr],
    exec i s = .next { s with rx := { s.rx with status := ⟨.error, 4, s.rx.status.ioKind⟩, result := none } }

/-- The model's own stop (log 18): an information field of 0 octets or of more than rx_buf holds is no information field
(R230 has n ≥ 1, R42 254 octets), and the nine types that read their payload fault on it by name. No sound state with
RX BUSY in INFO has such a length. -/
def Obligations.InfoLengthOutsideBufferFaults : Prop :=
  ∀ (s : State) (cr : CommandResponse), s.rx.len.toNat = 0 ∨ 254 < s.rx.len.toNat →
    ∀ i ∈ [Instr.pn cr, .cld cr, .fcOn cr, .fcOff cr, .msc cr, .nsc cr, .rpn cr, .rls cr, .snc cr],
      exec i s = .fault .rxInfoLength

/-- R231: each implemented type's read rule accepts what its write rule gives, and reads back the body, up to the EA
bits that MSC forces on write (R213's norm); and wire_len is the number of octets written. -/
def Obligations.InfoReadAcceptsInfoWrite : Prop :=
  ∀ (s : State) (cr : CommandResponse) (body : InfoBody), s.params.wellFormed = true → body.wellFormed = true →
    (infoWrite s.params.infoTags body).length = wireLen body ∧
    (s.rx.len.toNat = 1 + wireLen body →
      memReadRange s.rx.buf 1 (wireLen body) = infoWrite s.params.infoTags body →
      exec (infoInstr (informationType body) cr) s = .next { s with rx := { s.rx with
        info := ⟨cr, normBody body⟩, state := .fcs } })

/-! ## RX octet steps -/

/-- R152: HUNT discards every octet but 0xF9; the flag starts the CRC at 0xFF and leads to ADDR. -/
def Obligations.HuntFindsFlag : Prop :=
  ∀ (s : State) (b : Byte) (src : List SrcEvent) (sch : List Agent), RxTakes s .hunt (.byte b) src sch →
    (b = 0xF9#8 → step s = .next { s with source := src, schedule := sch, rx := { s.rx with
        crc := 0xFF#8, state := .addr } }) ∧
    (b ≠ 0xF9#8 → step s = .next { s with source := src, schedule := sch })

/-- R153, R154: the end of the source raises Io(BrokenPipe) in HUNT and Io(IO_KIND_EOF) in every other state; a source
fault raises Io with its own kind in every state. That an error leaves the working registers as they were is the
model's choice (log 16). -/
def Obligations.SourceEndOrFaultRaisesIo : Prop :=
  ∀ (s : State) (q : RxState) (src : List SrcEvent) (sch : List Agent),
    (RxTakes s q .eof src sch → step s = .next { s with source := src, schedule := sch, rx := { s.rx with
        status := ⟨.error, 1, if q = .hunt then .brokenPipe else s.params.ioKindEof⟩, result := none } }) ∧
    (∀ k, RxTakes s q (.fault k) src sch → step s = .next { s with source := src, schedule := sch, rx := { s.rx with
        status := ⟨.error, 1, k⟩, result := none } })

/-- R155, R171: every octet after the opening flag, 0xF9 too, is the address. -/
def Obligations.AddressOctetTaken : Prop :=
  ∀ (s : State) (b : Byte) (src : List SrcEvent) (sch : List Agent), RxTakes s .addr (.byte b) src sch →
    step s = .next { s with source := src, schedule := sch, rx := { s.rx with
      addr := b, crc := crcUpdate s.rx.crc b, state := .type } }

/-- R156, R107: a TYPE octet whose key is one of the six is classified, whatever its P/F bit; every other raises
InvalidFrameFormat before LEN is read. That an error leaves the working registers (log 16) and IO_KIND (log 11) as
they were is the model's choice. -/
def Obligations.TypeOctetClassified : Prop :=
  ∀ (s : State) (b : Byte) (src : List SrcEvent) (sch : List Agent), RxTakes s .type (.byte b) src sch →
    (∀ ft, (b &&& 0xEF#8, ft) ∈ [(0x2F#8, FrameType.sabm), (0x63#8, .ua), (0x0F#8, .dm), (0x43#8, .disc),
        (0xEF#8, .uih), (0x03#8, .ui)] →
      step s = .next { s with source := src, schedule := sch, rx := { s.rx with
        typ := b, ftype := ft, crc := crcUpdate s.rx.crc b, state := .len1 } }) ∧
    (b &&& 0xEF#8 ∉ [0x2F#8, 0x63#8, 0x0F#8, 0x43#8, 0xEF#8, 0x03#8] →
      step s = .next { s with source := src, schedule := sch, rx := { s.rx with
        typ := b, status := ⟨.error, 3, s.rx.status.ioKind⟩, result := none } })

/-- R157, R158, R304: the length value that the LEN octets give, and which of them completes it. -/
def Obligations.LengthOctetsAssembled : Prop :=
  ∀ (s : State) (b : Byte) (src : List SrcEvent) (sch : List Agent),
    (RxTakes s .len1 (.byte b) src sch → b.getLsbD 0 = true → ∃ n : BitVec 14, n.toNat = b.toNat / 2 ∧
      step s = exec (frameInstr s.rx.ftype (pfOf s.rx.typ)) { s with source := src, schedule := sch, rx := { s.rx with
        crc := crcUpdate s.rx.crc b, len := n } }) ∧
    (RxTakes s .len1 (.byte b) src sch → b.getLsbD 0 = false →
      step s = .next { s with source := src, schedule := sch, rx := { s.rx with
        crc := crcUpdate s.rx.crc b, len1 := b, state := .len2 } }) ∧
    (RxTakes s .len2 (.byte b) src sch → ∃ n : BitVec 14, n.toNat = s.rx.len1.toNat / 2 * 128 + b.toNat / 2 ∧
      step s = exec (frameInstr s.rx.ftype (pfOf s.rx.typ)) { s with source := src, schedule := sch, rx := { s.rx with
        crc := crcUpdate s.rx.crc b, len := n } })

/-- R162, R163, R230: an information octet is stored at rx_cnt, folded into the CRC and counted, an octet 0xF9 too
(R172). The octet that completes the field also dispatches it: a tag that names no type raises InvalidFrameFormat,
before any shape check; otherwise the information type's instruction runs on the stored field. That an error leaves
the working registers (log 16) and IO_KIND (log 11) as they were is the model's choice. -/
def Obligations.InfoOctetStoredThenDispatched : Prop :=
  ∀ (s : State) (b : Byte) (src : List SrcEvent) (sch : List Agent), RxTakes s .info (.byte b) src sch →
    Memory.wf s.rx.buf = true → s.params.wellFormed = true → s.rx.cnt.toNat < 254 →
    ∃ buf, (∀ i, memRead buf i = if i = s.rx.cnt.toNat then b else memRead s.rx.buf i) ∧
      (s.rx.cnt.toNat + 1 ≠ s.rx.len.toNat → step s = .next { s with source := src, schedule := sch, rx := { s.rx with
        buf := buf, crc := crcUpdate s.rx.crc b, cnt := s.rx.cnt + 1 } }) ∧
      (∀ T, s.rx.cnt.toNat + 1 = s.rx.len.toNat → infoTagOf s.params.infoTags T = memRead buf 0 &&& 0xFC#8 →
        step s = exec (infoInstr T (if (memRead buf 0).getLsbD 1 then .command else .response))
          { s with source := src, schedule := sch, rx := { s.rx with
            buf := buf, crc := crcUpdate s.rx.crc b, cnt := s.rx.cnt + 1 } }) ∧
      (s.rx.cnt.toNat + 1 = s.rx.len.toNat → (∀ T, infoTagOf s.params.infoTags T ≠ memRead buf 0 &&& 0xFC#8) →
        step s = .next { s with source := src, schedule := sch, rx := { s.rx with
          buf := buf, crc := crcUpdate s.rx.crc b, cnt := s.rx.cnt + 1
          status := ⟨.error, 3, s.rx.status.ioKind⟩, result := none } })

/-- R164, R334: the FCS octet is accepted exactly when it is 0xFF - rx_crc; any other raises CrcMismatch and the
closing flag stays in the source. That an error leaves the working registers (log 16) and IO_KIND (log 11) as they
were is the model's choice. -/
def Obligations.FcsOctetChecked : Prop :=
  ∀ (s : State) (b : Byte) (src : List SrcEvent) (sch : List Agent), RxTakes s .fcs (.byte b) src sch →
    (b.toNat + s.rx.crc.toNat = 255 → step s = .next { s with source := src, schedule := sch, rx := { s.rx with
        state := .close } }) ∧
    (b.toNat + s.rx.crc.toNat ≠ 255 → step s = .next { s with source := src, schedule := sch, rx := { s.rx with
        status := ⟨.error, 2, s.rx.status.ioKind⟩, result := none } })

/-- R165 to R168: a closing 0xF9 publishes the frame: DONE, ERR 0 and the result in one step; anything else raises
InvalidFrameFormat. That completion and error leave the working registers (log 16) and IO_KIND (log 11) as they were
is the model's choice. -/
def Obligations.CloseOctetPublishesFrame : Prop :=
  ∀ (s : State) (b : Byte) (src : List SrcEvent) (sch : List Agent), RxTakes s .close (.byte b) src sch →
    (b = 0xF9#8 → s.rx.ftype = .sabm → step s = .next { s with source := src, schedule := sch, rx := { s.rx with
        status := ⟨.done, 0, s.rx.status.ioKind⟩
        result := some (.sabm ((s.rx.addr >>> 2).setWidth 6) (if s.rx.typ.getLsbD 4 then .poll else .final)) } }) ∧
    (b = 0xF9#8 → s.rx.ftype ≠ .sabm → step s = .next { s with source := src, schedule := sch, rx := { s.rx with
        status := ⟨.done, 0, s.rx.status.ioKind⟩
        result := some (.uih ((s.rx.addr >>> 2).setWidth 6) (if s.rx.addr.getLsbD 1 then .command else .response)
          (if s.rx.typ.getLsbD 4 then .poll else .final) s.rx.info) } }) ∧
    (b ≠ 0xF9#8 → step s = .next { s with source := src, schedule := sch, rx := { s.rx with
        status := ⟨.error, 3, s.rx.status.ioKind⟩, result := none } })

/-- R151, R207, D37: while not BUSY an engine takes no step, and consumes or emits nothing; while its stream does not
answer it waits. -/
def Obligations.EnginesWaitOrAreIdle : Prop :=
  ∀ (s : State) (sch : List Agent),
    (s.schedule = .rx :: sch → s.rx.status.phase ≠ .busy ∨ s.source = [] → step s = .next { s with schedule := sch }) ∧
    (s.schedule = .tx :: sch → s.tx.status.phase ≠ .busy ∨ s.sinkAnswers = [] →
      step s = .next { s with schedule := sch })

/-! ## TX emit steps -/

/-- R207 to R209: the offered octet is `tx_buf[tx_idx]`. Accepted, it is appended to the TX stream and tx_idx goes up
by one; when tx_idx reaches tx_len the transaction completes in the same step. A sink fault ends the transaction with
Io(k): the octets accepted before stay emitted, and the faulted octet is not emitted. Without an answer the step has
not happened. That completion leaves IO_KIND (log 11), and completion and the fault tx_buf, tx_len and tx_idx (log
16), as they were is the model's choice. -/
def Obligations.EmitStepFollowsAnswer : Prop :=
  (∀ (s : State) (r : SinkAnswer) (ans : List SinkAnswer) (sch : List Agent), TxTakes s r ans sch →
    s.tx.idx.toNat < 261 →
    (r = .ok → s.tx.idx.toNat + 1 ≠ s.tx.len.toNat →
      step s = .next { s with
        sinkAnswers := ans, schedule := sch, sinkOctets := s.sinkOctets ++ [memRead s.tx.buf s.tx.idx.toNat]
        tx := { s.tx with idx := s.tx.idx + 1 } }) ∧
    (r = .ok → s.tx.idx.toNat + 1 = s.tx.len.toNat →
      step s = .next { s with
        sinkAnswers := ans, schedule := sch, sinkOctets := s.sinkOctets ++ [memRead s.tx.buf s.tx.idx.toNat]
        tx := { s.tx with idx := s.tx.idx + 1, status := ⟨.done, 0, s.tx.status.ioKind⟩ } }) ∧
    (∀ k, r = .fault k → step s = .next { s with sinkAnswers := ans, schedule := sch, tx := { s.tx with
      status := ⟨.error, 1, k⟩ } })) ∧
  (∀ (s : State) (sch : List Agent), s.schedule = .tx :: sch → s.tx.status.phase = .busy →
    s.tx.idx.toNat < s.tx.len.toNat → s.sinkAnswers = [] → step s = .next { s with schedule := sch })

/-! ## Host port -/

/-- The host actions that have no meaning are refused as HostProtocol (R342): the reserved CMD codes (R124), a read of
CMD (R32), a write to RX_STATUS (R33), RX_RESULT (R34) or TX_STATUS (R36). -/
def Obligations.MeaninglessHostActionsRefused : Prop :=
  ∀ (s : State) (a : HostAction) (acts : List HostAction) (sch : List Agent), HostActs s a acts sch →
    a ∈ [.writeCmd 0b011#3, .writeCmd 0b100#3, .writeCmd 0b111#3, .writeRxStatus, .writeRxResult, .writeTxStatus,
      .readCmd] →
    step s = .refused .hostProtocol

/-- R33, R36: a read of a status register shows PHASE and ERR as they stand, and IO_KIND when ERR is 1; it changes no
register of the block. While ERR is not 1 the kind shown is a free value (I7): the statement holds for every one. -/
def Obligations.StatusReadShowsFields : Prop :=
  ∀ (s : State) (acts : List HostAction) (sch : List Agent),
    ∀ p ∈ [(HostAction.readRxStatus, s.rx.status), (.readTxStatus, s.tx.status)], HostActs s p.1 acts sch →
      ∃ (ph : BitVec 2) (k : IoKind),
        (ph, p.2.phase) ∈ [(0, Phase.idle), (1, .busy), (2, .done), (3, .error)]
        ∧ (p.2.err = 1 → k = p.2.ioKind)
        ∧ step s = .next { s with
            schedule := sch, host := ⟨acts, some (.status ph p.2.err k)⟩, freeCount := s.freeCount + 1 }

/-- R34: a read of RX_RESULT shows the frame when PHASE is DONE, and is refused in every other PHASE. -/
def Obligations.ResultReadOnlyWhenDone : Prop :=
  ∀ (s : State) (acts : List HostAction) (sch : List Agent), HostActs s .readRxResult acts sch →
    (∀ f, s.rx.status.phase = .done → s.rx.result = some f →
      step s = .next { s with schedule := sch, host := ⟨acts, some (.frame f)⟩ }) ∧
    (s.rx.status.phase ≠ .done → step s = .refused .resultNotValid)

/-- R35, R376: a write to TX_DESC is taken in any PHASE and changes no other register, the running transaction's tx_buf
included; a read shows the last value written and changes nothing. -/
def Obligations.DescriptorWriteAndRead : Prop :=
  ∀ (s : State) (d : Frame) (acts : List HostAction) (sch : List Agent),
    (HostActs s (.writeTxDesc d) acts sch → step s = .next { s with
        schedule := sch, host := { s.host with pending := acts }, tx := { s.tx with desc := some d } }) ∧
    (HostActs s .readTxDesc acts sch → s.tx.desc = some d →
      step s = .next { s with schedule := sch, host := ⟨acts, some (.frame d)⟩ })

/-! ## Errors -/

/-- R331, R332: raising an error in either engine: PHASE ERROR, the error's code, the kind for Io and only for Io,
RX_RESULT invalid for RX; nothing else changes. That the raising engine's working registers (R331 says that they lose
meaning; log 16) and, but for Io, its IO_KIND (log 11) keep their values is the model's choice. -/
def Obligations.RaiseEntersError : Prop :=
  ∀ s : State,
    (∀ p ∈ [(CmuxError.crcMismatch, (2 : BitVec 3)), (.invalidFrameFormat, 3), (.unsupportedOperation, 4),
        (.invalidInformationField, 5)],
      raise .rx p.1 s = { s with rx := { s.rx with status := ⟨.error, p.2, s.rx.status.ioKind⟩, result := none } }
        ∧ raise .tx p.1 s = { s with tx := { s.tx with status := ⟨.error, p.2, s.tx.status.ioKind⟩ } }) ∧
    ∀ k, raise .rx (.io k) s = { s with rx := { s.rx with status := ⟨.error, 1, k⟩, result := none } }
      ∧ raise .tx (.io k) s = { s with tx := { s.tx with status := ⟨.error, 1, k⟩ } }

/-- R342, R300, R302: only a host action is refused, and only as HostProtocol, ResultNotValid or BadDescriptor: no
transaction reaches the faults of the EA codec. -/
def Obligations.OnlyHostActionsAreRefused : Prop :=
  ∀ (s : State) (r : Refusal), step s = .refused r →
    (r = .hostProtocol ∨ r = .resultNotValid ∨ r = .badDescriptor) ∧ ∃ sch, s.schedule = .host :: sch

/-! ## The whole machine -/

/-- A step runs the decoded instruction, in each of the three slots: CMD (R122), the TYPE octet once LEN is complete (R157,
R158), the tag octet once the information field is complete (R163). Around `exec`, the step takes the schedule's
entry and the host's action or the source's octet, and writes the working registers named here. -/
def Obligations.StepRunsDecodedInstruction : Prop :=
  (∀ (s : State) (c : BitVec 3) (i : Instr) (acts : List HostAction) (sch : List Agent),
    HostActs s (.writeCmd c) acts sch → decode s.params.infoTags .cmd (c.setWidth 8) = .ok i →
    step s = exec i (hostTaken s acts sch)) ∧
  (∀ (s : State) (b : Byte) (i : Instr) (src : List SrcEvent) (sch : List Agent),
    RxTakes s .len1 (.byte b) src sch → b.getLsbD 0 = true → rxTypeKnown s.rx = true →
    decode s.params.infoTags .frameType s.rx.typ = .ok i →
    step s = exec i (withRx (rxTaken s src sch) { s.rx with crc := crcUpdate s.rx.crc b, len := frameLen1 b })) ∧
  (∀ (s : State) (b : Byte) (i : Instr) (src : List SrcEvent) (sch : List Agent),
    RxTakes s .len2 (.byte b) src sch → rxTypeKnown s.rx = true →
    decode s.params.infoTags .frameType s.rx.typ = .ok i →
    step s = exec i
      (withRx (rxTaken s src sch) { s.rx with crc := crcUpdate s.rx.crc b, len := frameLen2 s.rx.len1 b })) ∧
  (∀ (s : State) (b : Byte) (i : Instr) (src : List SrcEvent) (sch : List Agent),
    RxTakes s .info (.byte b) src sch → s.rx.cnt.toNat < 254 → s.rx.cnt.toNat + 1 = s.rx.len.toNat →
    decode s.params.infoTags .infoTag (memRead (memWrite s.rx.buf s.rx.cnt.toNat b) 0) = .ok i →
    step s = exec i (withRx (rxTaken s src sch) { s.rx with
      buf := memWrite s.rx.buf s.rx.cnt.toNat b, crc := crcUpdate s.rx.crc b, cnt := s.rx.cnt + 1 }))

/-- The invariant holds after reset. -/
def Obligations.ResetSatisfiesInvariant : Prop := State.reset.Inv

/-- Every step keeps the invariant: the status registers read only the values of their tables (R37), RX_RESULT is valid
exactly when PHASE is DONE (R34), a running transaction's working registers agree with its position (R40 to R47), and
both buffers keep their canonical form and their bounds (R42, R44, R73, R74). -/
def Obligations.EveryStepKeepsInvariant : Prop :=
  ∀ s t : State, s.Inv → step s = .next t → t.Inv

/-- R81, R73, R74: in a sound state no step faults: no index of either buffer is left, and no information field is read
that does not fit. -/
def Obligations.SoundStateNeverFaults : Prop :=
  ∀ (s : State) (f : Fault), s.Inv → step s ≠ .fault f

/-- R84, R347, R39: a step of one engine changes nothing of the other engine, of the other stream or of the host; and no
step changes the parameters (R373). -/
def Obligations.EnginesAreIsolated : Prop :=
  ∀ (s t : State) (sch : List Agent), step s = .next t →
    t.params = s.params ∧
    (s.schedule = .rx :: sch → t = { s with schedule := sch, rx := t.rx, source := t.source }) ∧
    (s.schedule = .tx :: sch →
      t = { s with schedule := sch, tx := t.tx, sinkAnswers := t.sinkAnswers, sinkOctets := t.sinkOctets })

/-- R39, R38: while an engine is not BUSY, its status and result stay in place in every step but its own START and
reset. R39 names ABORT beside them; that an ABORT of an engine that is not BUSY keeps its status and result is the
model's reading of R38, R174, R210 and R381 (log 30). That IO_KIND stays while ERR is not 1 is the model's choice (log
11). -/
def Obligations.ResultsStayUntilStartOrReset : Prop :=
  ∀ s t : State, step s = .next t → (∀ sch, s.schedule ≠ .reset :: sch) →
    (s.rx.status.phase ≠ .busy → (∀ acts sch, ¬ HostActs s (.writeCmd 0b001#3) acts sch) →
      t.rx.status = s.rx.status ∧ t.rx.result = s.rx.result) ∧
    (s.tx.status.phase ≠ .busy → (∀ acts sch, ¬ HostActs s (.writeCmd 0b101#3) acts sch) →
      t.tx.status = s.tx.status)

/-- R38, R370: every change of a PHASE field is one of the table's transitions, with its event and its other fields; in
particular only an ABORT and reset take a BUSY engine to IDLE. -/
def Obligations.PhaseChangesOnlyByItsEvents : Prop :=
  ∀ s t : State, step s = .next t →
    (t.rx.status.phase ≠ s.rx.status.phase →
      ((∃ sch, s.schedule = .reset :: sch) ∧ t.rx.status.phase = .idle ∧ t.rx.status.err = 0 ∧ t.rx.result = none) ∨
      ((∃ acts sch, HostActs s (.writeCmd 0b001#3) acts sch) ∧ t.rx.status.phase = .busy ∧ t.rx.status.err = 0
        ∧ t.rx.result = none) ∨
      (s.rx.status.phase = .busy ∧ (∃ acts sch, HostActs s (.writeCmd 0b010#3) acts sch) ∧ t.rx.status.phase = .idle
        ∧ t.rx.status.err = 0 ∧ t.rx.result = none) ∨
      (s.rx.status.phase = .busy ∧ (∃ sch, s.schedule = .rx :: sch) ∧
        (t.rx.status.phase = .done ∧ t.rx.status.err = 0 ∧ t.rx.result ≠ none ∨
          t.rx.status.phase = .error ∧ t.rx.status.err ≠ 0 ∧ t.rx.result = none))) ∧
    (t.tx.status.phase ≠ s.tx.status.phase →
      ((∃ sch, s.schedule = .reset :: sch) ∧ t.tx.status.phase = .idle ∧ t.tx.status.err = 0) ∨
      ((∃ acts sch, HostActs s (.writeCmd 0b101#3) acts sch) ∧ t.tx.status.phase = .busy ∧ t.tx.status.err = 0) ∨
      (s.tx.status.phase = .busy ∧ (∃ acts sch, HostActs s (.writeCmd 0b110#3) acts sch) ∧ t.tx.status.phase = .idle
        ∧ t.tx.status.err = 0) ∨
      (s.tx.status.phase = .busy ∧ (∃ sch, s.schedule = .tx :: sch) ∧
        (t.tx.status.phase = .done ∧ t.tx.status.err = 0 ∨ t.tx.status.phase = .error ∧ t.tx.status.err = 1)))

/-- R71, R72, R80, R151: a step consumes at most the source's next answer, and only when the RX engine moves while BUSY; it
takes at most the sink's next answer, and only when the TX engine moves while BUSY; an accepted octet is appended and
none is withdrawn. -/
def Obligations.StreamsMoveOneEventPerStep : Prop :=
  ∀ s t : State, step s = .next t →
    (t.source = s.source ∨
      (∃ e, s.source = e :: t.source) ∧ s.rx.status.phase = .busy ∧ ∃ sch, s.schedule = .rx :: sch) ∧
    (t.sinkAnswers = s.sinkAnswers ∧ t.sinkOctets = s.sinkOctets ∨
      (s.sinkAnswers = .ok :: t.sinkAnswers ∧ t.sinkOctets = s.sinkOctets ++ [memRead s.tx.buf s.tx.idx.toNat] ∨
        (∃ k, s.sinkAnswers = .fault k :: t.sinkAnswers) ∧ t.sinkOctets = s.sinkOctets)
      ∧ s.tx.status.phase = .busy ∧ ∃ sch, s.schedule = .tx :: sch)

/-! ## Encodings -/

/-- R122, R105, R110: decoding the code of an instruction in its slot gives the instruction back, for every instruction and
every legal INFO_TAG. -/
def Obligations.DecodeInvertsEncode : Prop :=
  ∀ (tags : InfoTags) (i : Instr), tags.wellFormed = true → decode tags i.slot (encode tags i) = .ok i

/-- R122, R105, R106, R110, R121: the other direction: what a slot decodes is encoded as the word read, exactly for a
command code and a TYPE octet, and but for bit 0 for a tag octet, which is ignored on read, written 0 and no operand
of the instruction (log 28). -/
def Obligations.EncodeInvertsDecode : Prop :=
  ∀ (tags : InfoTags) (slot : Slot) (w : Byte) (i : Instr), tags.wellFormed = true → decode tags slot w = .ok i →
    i.slot = slot ∧ encode tags i = if slot = .infoTag then w &&& 0xFE#8 else w

/-- R111: a tag octet selects the one information type whose INFO_TAG value is its key, under every legal INFO_TAG. -/
def Obligations.InfoTagSelectsItsType : Prop :=
  ∀ (tags : InfoTags) (g : Byte) (T : InfoType), tags.wellFormed = true →
    (classifyInfoTag tags g = some T ↔ infoTagOf tags T = g &&& 0xFC#8)

/-- A few words written out from the spec's maps decode to what they stand for (R122, R106, R112). The three tag
octets are those of the default INFO_TAG, a parameter whose default is PRESUMED (log 8): these clauses hold for that
table only. -/
def Obligations.SpecWordsDecode : Prop :=
  decode defaultInfoTags .cmd 0b00000101#8 = .ok .txStart
    ∧ decode defaultInfoTags .frameType 0b00111111#8 = .ok (.sabm .poll)
    ∧ decode defaultInfoTags .frameType 0b11101111#8 = .ok (.uih .final)
    ∧ decode defaultInfoTags .infoTag 0b11100010#8 = .ok (.msc .command)
    ∧ decode defaultInfoTags .infoTag 0b11100011#8 = .ok (.msc .command)
    ∧ decode defaultInfoTags .infoTag 0b00010000#8 = .ok (.nsc .response)

/-! ## CRC and EA engines -/

/-- R294: crc_update depends on c ^ b only, and the table is a bijection: its 256 entries are pairwise distinct. -/
def Obligations.CrcTableIsBijection : Prop :=
  (∀ c b : Byte, crcUpdate c b = crcUpdate 0x00#8 (c ^^^ b)) ∧
  (∀ x y : Byte, crcUpdate 0x00#8 x = crcUpdate 0x00#8 y → x = y)

/-- R296: the two forms of the FCS check agree for every register value and every octet. -/
def Obligations.FcsCheckIsResidueCheck : Prop :=
  ∀ c b : Byte, b = 0xFF#8 - c ↔ crcUpdate c b = 0xCF#8

/-- R298: flipping any one bit of any covered octet changes the FCS. -/
def Obligations.SingleBitFlipChangesFcs : Prop :=
  ∀ (s : List Byte) (i j : Nat), i < s.length → j < 8 →
    fcs (s.set i (s.getD i 0 ^^^ (0x01#8 <<< j))) ≠ fcs s

/-- R305, R301, R299: the general reader reads back what the writer writes and leaves the rest of the source; one octet up
to 127, two up to 16383, on which the frame path's length agrees. -/
def Obligations.EaReadInvertsEaWrite : Prop :=
  ∀ (p : Params) (n : Nat) (src : List SrcEvent), n < 2 ^ 28 →
    ∃ octets, eaWrite n = .ok octets ∧ eaRead p (srcOctets octets ++ src) = (.value n, src)
      ∧ (n ≤ 127 → ∃ b, octets = [b] ∧ b.getLsbD 0 = true ∧ (frameLen1 b).toNat = n)
      ∧ (128 ≤ n ∧ n ≤ 16383 → ∃ b1 b2, octets = [b1, b2] ∧ b1.getLsbD 0 = false ∧ (frameLen2 b1 b2).toNat = n)

/-- R300, R302: the two refusals of the EA codec: a number of 2^28 or more is not written, and a fourth octet with EA
= 0 is refused. That the refused call has consumed its four octets is R302's word against R342's, and the model's
choice (log 24). -/
def Obligations.EaCodecRefusals : Prop :=
  (∀ n : Nat, 2 ^ 28 ≤ n → eaWrite n = .error .eaTooLarge) ∧
  (∀ (p : Params) (a b c d : Byte) (src : List SrcEvent), a.getLsbD 0 = false → b.getLsbD 0 = false →
    c.getLsbD 0 = false → d.getLsbD 0 = false →
    eaRead p (.byte a :: .byte b :: .byte c :: .byte d :: src) = (.refused .eaOverflow, src))

/-! ## Frames on the wire -/

/-- R204, R202, R203: the six octets of a SABM frame. -/
def Obligations.SabmFrameOctets : Prop :=
  ∀ (tags : InfoTags) (id : BitVec 6) (pf : PollFinal) (a t : Byte),
    a = BitVec.ofNat 8 (id.toNat * 4 + 3) → t = (if pf = .poll then 0x3F#8 else 0x2F#8) →
    build tags (.sabm id pf) = .ok [0xF9#8, a, t, 0x01#8, 0xFF#8 - crc8 [a, t, 0x01#8], 0xF9#8]

/-- R205, R206: the octets of a UIH frame: LEN counts the tag and the payload in one octet up to 127 and in two up to 254,
the FCS covers the octets as transmitted, and tx_buf holds the longest. -/
def Obligations.UihFrameOctets : Prop :=
  ∀ (tags : InfoTags) (id : BitVec 6) (cr : CommandResponse) (pf : PollFinal) (info : InformationField)
    (n : Nat) (a t g : Byte) (L : List Byte),
    (Frame.uih id cr pf info).wellFormed = true →
    n = 1 + (infoWrite tags info.body).length →
    a = BitVec.ofNat 8 (id.toNat * 4 + (if cr = .command then 2 else 0) + 1) →
    t = (if pf = .poll then 0xFF#8 else 0xEF#8) →
    g = infoTagOf tags (informationType info.body) ||| (if info.cr = .command then 0x02#8 else 0x00#8) →
    L = (if n ≤ 127 then [BitVec.ofNat 8 (n * 2 + 1)]
      else [BitVec.ofNat 8 (n / 128 * 2), BitVec.ofNat 8 (n % 128 * 2 + 1)]) →
    n ≤ 254 ∧ ∃ octets, build tags (.uih id cr pf info) = .ok octets
      ∧ octets = [0xF9#8] ++ ([a, t] ++ L ++ [g] ++ infoWrite tags info.body)
        ++ [0xFF#8 - crc8 ([a, t] ++ L ++ [g] ++ infoWrite tags info.body), 0xF9#8]
      ∧ octets.length = 5 + L.length + n ∧ 7 ≤ octets.length ∧ octets.length ≤ 261

/-- R233 to R249: the payload octets of each body, EA forced to 1 on Control and Break only. -/
def Obligations.InfoWriteOctets : Prop :=
  ∀ (tags : InfoTags) (d : BitVec 6) (cr : CommandResponse) (c k : Byte) (ct : InfoType) (raw : List Byte) (p0 b1 : Byte),
    b1 = (if cr = .command then 0x02#8 else 0x00#8) → p0 = BitVec.ofNat 8 (d.toNat * 4) ||| b1 →
    infoWrite tags .pn = [] ∧ infoWrite tags .cld = [] ∧ infoWrite tags .fcOff = [] ∧ infoWrite tags .fcOn = []
      ∧ infoWrite tags (.msc d cr c none) = [p0, c ||| 0x01#8]
      ∧ infoWrite tags (.msc d cr c (some k)) = [p0, c ||| 0x01#8, k ||| 0x01#8]
      ∧ infoWrite tags (.nsc ct cr) = [infoTagOf tags ct ||| b1]
      ∧ infoWrite tags (.rpn raw) = raw ∧ infoWrite tags (.snc raw) = raw
      ∧ infoWrite tags (.rls d cr c) = [p0, c]

/-- R252: a Control setter stores its value truncated to the field's width, for every value and every octet, and leaves
the octet's other bits as they were; the accessors show the fields. -/
def Obligations.ControlFieldsReadAndWrite : Prop :=
  (∀ (v : Nat) (c : Byte), ∀ p ∈ [(controlWithEa, 0, 1), (controlWithFc, 1, 1), (controlWithRtc, 2, 1),
      (controlWithRtr, 3, 1), (controlWithReserved, 4, 2), (controlWithIc, 6, 1), (controlWithDv, 7, 1)],
    ∀ i, i < 8 → (p.1 v c).getLsbD i
      = if p.2.1 ≤ i ∧ i < p.2.1 + p.2.2 then v.testBit (i - p.2.1) else c.getLsbD i) ∧
  ∀ c : Byte, c = BitVec.ofNat 8 ((controlEa c).toNat + 2 * (controlFc c).toNat + 4 * (controlRtc c).toNat
    + 8 * (controlRtr c).toNat + 16 * (controlReserved c).toNat + 64 * (controlIc c).toNat + 128 * (controlDv c).toNat)

/-! ## Whole transactions -/

/-- R213: for every valid descriptor, an RX engine that hunts over the octets TX_START emits for it completes with DONE,
consumes exactly those octets, and returns norm of the descriptor; the TX side is untouched. -/
def Obligations.DecodeOfEncodedFrame : Prop :=
  ∀ (s : State) (f : Frame) (octets : List Byte) (src : List SrcEvent) (sch : List Agent),
    s.params.wellFormed = true → f.wellFormed = true → build s.params.infoTags f = .ok octets →
    s.rx.status.phase = .busy → s.rx.state = .hunt → Memory.wf s.rx.buf = true →
    s.source = srcOctets octets ++ src → s.schedule = List.replicate octets.length .rx ++ sch →
    ∃ t : State, Host.Core.run core octets.length s = .next t
      ∧ t.rx.status.phase = .done ∧ t.rx.status.err = 0 ∧ t.rx.result = some (normFrame f)
      ∧ t.source = src ∧ t.schedule = sch ∧ t.tx = s.tx ∧ t.sinkOctets = s.sinkOctets

/-- R200, R207, R209, R83: TX_START, then one accepted offer for each octet of the frame: the sink receives exactly the
frame, in order, and TX is DONE. -/
def Obligations.StartedFrameIsEmittedWhole : Prop :=
  ∀ (s : State) (d : Frame) (octets : List Byte) (acts : List HostAction) (ans : List SinkAnswer) (sch : List Agent),
    s.tx.status.phase ≠ .busy → s.tx.desc = some d → d.wellFormed = true → Memory.wf s.tx.buf = true →
    build s.params.infoTags d = .ok octets →
    s.host.pending = .writeCmd 0b101#3 :: acts →
    s.sinkAnswers = List.replicate octets.length .ok ++ ans →
    s.schedule = .host :: (List.replicate octets.length .tx ++ sch) →
    ∃ t : State, Host.Core.run core (octets.length + 1) s = .next t
      ∧ t.tx.status.phase = .done ∧ t.tx.status.err = 0 ∧ t.sinkOctets = s.sinkOctets ++ octets
      ∧ t.sinkAnswers = ans ∧ t.schedule = sch ∧ t.host.pending = acts ∧ t.rx = s.rx ∧ t.source = s.source

/-- R350: an RX transaction ends, in DONE or ERROR, within 260 answers after the first flag, whatever they are. -/
def Obligations.RxTransactionEnds : Prop :=
  ∀ (s : State) (pre : List Byte) (evs : List SrcEvent) (sch : List Agent),
    s.Inv → s.rx.status.phase = .busy → s.rx.state = .hunt → 0xF9#8 ∉ pre → 260 ≤ evs.length →
    s.source = srcOctets (pre ++ [0xF9#8]) ++ evs →
    s.schedule = List.replicate (pre.length + 1 + 260) .rx ++ sch →
    ∃ t : State, Host.Core.run core (pre.length + 1 + 260) s = .next t
      ∧ (t.rx.status.phase = .done ∨ t.rx.status.phase = .error)

/-- R350: a TX transaction ends, in DONE or ERROR, within 261 answers of the sink, whatever they are. -/
def Obligations.TxTransactionEnds : Prop :=
  ∀ (s : State) (sch : List Agent),
    s.Inv → s.tx.status.phase = .busy → 261 ≤ s.sinkAnswers.length →
    s.schedule = List.replicate 261 .tx ++ sch →
    ∃ t : State, Host.Core.run core 261 s = .next t
      ∧ (t.tx.status.phase = .done ∨ t.tx.status.phase = .error)
end

