-- ==== Sys2Proof/Laws/Codes.lean ====
section
/-! SUPPORT. The laws of the octet codes: what an address, DLCI, TYPE or tag octet reads back as (R50, R51, R104,
R110, R119), and the values of the LEN octets (R157, R299, R304). -/

namespace Sys2Proof.Machine

/-- R119: the two fields of a DLCI octet. -/
theorem dlciOctet_fields (d : BitVec 6) (cr : CommandResponse) :
    upper6 (dlciOctet d cr) = d ∧ crOf (dlciOctet d cr) = cr := by
  cases cr <;> · revert d; decide

/-- R104, R119: the two fields of an address octet. -/
theorem addrOctet_fields (id : BitVec 6) (cr : CommandResponse) :
    upper6 (addrOctet id cr) = id ∧ crOf (addrOctet id cr) = cr := by
  cases cr <;> · revert id; decide

/-- R202: the address octet as a number. -/
theorem addrOctet_ofNat (id : BitVec 6) (cr : CommandResponse) :
    addrOctet id cr = BitVec.ofNat 8 (id.toNat * 4 + (if cr = .command then 2 else 0) + 1) := by
  cases cr <;> · revert id; decide

/-- R105: the two fields of a TYPE octet. -/
theorem typeOctet_fields (ft : FrameType) (pf : PollFinal) :
    classifyFrameType (typeOctet ft pf) = some ft ∧ pfOf (typeOctet ft pf) = pf := by
  cases ft <;> cases pf <;> decide

/-- R10: bits 1:0 of every tag value are zero. -/
theorem infoTagOf_low {tags : InfoTags} (h : tags.wellFormed = true) (T : InfoType) :
    infoTagOf tags T &&& 0x03#8 = 0x00#8 := by
  simp only [InfoTags.wellFormed, Bool.and_eq_true] at h
  have h2 := h.1.2
  simp only [InfoTags.lowBitsZero, InfoTags.toList, List.all_cons, List.all_nil, Bool.and_eq_true, beq_iff_eq] at h2
  cases T <;> simp [infoTagOf, h2]

/-- R110: the key and the C/R bit of a tag octet whose value has bits 1:0 zero. -/
theorem or_crBit_fields {v : Byte} (h : v &&& 0x03#8 = 0x00#8) (cr : CommandResponse) :
    (v ||| crBit cr) &&& 0xFC#8 = v ∧ crOf (v ||| crBit cr) = cr := by
  cases cr <;> · revert v; decide

/-- Bit 0 of an octet, as a number. -/
theorem getLsbD_zero_iff (b : Byte) : b.getLsbD 0 = true ↔ b.toNat % 2 = 1 := by
  simp [BitVec.getLsbD, Nat.testBit_zero]

/-- R157: the length value of a single LEN octet. -/
theorem frameLen1_toNat (b : Byte) : (frameLen1 b).toNat = b.toNat / 2 := by
  simp [frameLen1, Nat.shiftRight_eq_div_pow]
  omega

/-- R304: the length value of two LEN octets. -/
theorem frameLen2_toNat (a b : Byte) : (frameLen2 a b).toNat = a.toNat / 2 * 128 + b.toNat / 2 := by
  simp only [frameLen2, BitVec.toNat_or, BitVec.toNat_shiftLeft, BitVec.toNat_setWidth, BitVec.toNat_ushiftRight,
    Nat.shiftRight_eq_div_pow]
  have ha := a.isLt
  have hb := b.isLt
  rw [show a.toNat / 2 ^ 1 % 2 ^ 14 = a.toNat / 2 by omega, show b.toNat / 2 ^ 1 % 2 ^ 14 = b.toNat / 2 by omega]
  rw [Nat.mod_eq_of_lt (by rw [Nat.shiftLeft_eq]; omega), ← Nat.shiftLeft_add_eq_or_of_lt (by omega), Nat.shiftLeft_eq]

/-- R299, R300: a length below 2^28 is written. -/
theorem eaWrite_ok {n : Nat} (h : n < 2 ^ 28) :
    eaWrite n = .ok ((List.range (eaGroups n)).map (eaOctet n (eaGroups n))) := if_pos h

/-- R212: the LEN field of a frame is one octet up to 127 and two up to 16383. -/
theorem eaGroups_frame {n : Nat} (h : n ≤ 16383) : eaGroups n = if n ≤ 127 then 1 else 2 := by
  unfold eaGroups
  split
  · rw [if_pos (by omega)]
  · rw [if_pos (by omega), if_neg (by omega)]

/-- R205, R212: the LEN octets of a frame. -/
theorem eaWrite_frame {n : Nat} (h : n ≤ 16383) :
    eaWrite n = .ok (if n ≤ 127 then [BitVec.ofNat 8 (n * 2 + 1)]
      else [BitVec.ofNat 8 (n / 128 * 2), BitVec.ofNat 8 (n % 128 * 2 + 1)]) := by
  rw [eaWrite_ok (by omega), eaGroups_frame h]
  congr 1
  split
  · simp [List.range_succ, eaOctet]
    congr 2
    omega
  · simp [List.range_succ, eaOctet]
    congr 2
    omega

/-- R293: the CRC of octets in two parts. -/
theorem crcFold_append (c : Byte) (s t : List Byte) : crcFold c (s ++ t) = crcFold (crcFold c s) t := by
  simp [crcFold]

/-- R60: the payload of a valid body holds at most 253 octets. -/
theorem infoWrite_length_le (tags : InfoTags) {body : InfoBody} (h : body.wellFormed = true) :
    (infoWrite tags body).length ≤ 253 := by
  cases body with
  | msc d cr c k => cases k <;> simp [infoWrite, writeMsc]
  | rpn raw => simp [InfoBody.wellFormed, rawLengthOk] at h; exact h.2
  | snc raw => simp [InfoBody.wellFormed, rawLengthOk] at h; exact h.2
  | pn => simp [infoWrite]
  | cld => simp [infoWrite]
  | fcOff => simp [infoWrite]
  | fcOn => simp [infoWrite]
  | nsc ct cr => simp [infoWrite, writeNsc]
  | rls d cr st => simp [infoWrite, writeRls]

end Sys2Proof.Machine
end

