-- ==== Sys2Proof/Laws/State.lean ====
section
/-! SUPPORT. One lemma per field per update of the state, true by rfl, so that no later proof unfolds an update. -/

namespace Sys2Proof.Machine

variable (s : State)

/-! ### withRx -/

@[simp] theorem withRx_params (r : RxEngine) : (withRx s r).params = s.params := rfl
@[simp] theorem withRx_rx (r : RxEngine) : (withRx s r).rx = r := rfl
@[simp] theorem withRx_tx (r : RxEngine) : (withRx s r).tx = s.tx := rfl
@[simp] theorem withRx_host (r : RxEngine) : (withRx s r).host = s.host := rfl
@[simp] theorem withRx_source (r : RxEngine) : (withRx s r).source = s.source := rfl
@[simp] theorem withRx_sinkAnswers (r : RxEngine) : (withRx s r).sinkAnswers = s.sinkAnswers := rfl
@[simp] theorem withRx_sinkOctets (r : RxEngine) : (withRx s r).sinkOctets = s.sinkOctets := rfl
@[simp] theorem withRx_schedule (r : RxEngine) : (withRx s r).schedule = s.schedule := rfl
@[simp] theorem withRx_freeCount (r : RxEngine) : (withRx s r).freeCount = s.freeCount := rfl

/-! ### withTx -/

@[simp] theorem withTx_params (t : TxEngine) : (withTx s t).params = s.params := rfl
@[simp] theorem withTx_rx (t : TxEngine) : (withTx s t).rx = s.rx := rfl
@[simp] theorem withTx_tx (t : TxEngine) : (withTx s t).tx = t := rfl
@[simp] theorem withTx_host (t : TxEngine) : (withTx s t).host = s.host := rfl
@[simp] theorem withTx_source (t : TxEngine) : (withTx s t).source = s.source := rfl
@[simp] theorem withTx_sinkAnswers (t : TxEngine) : (withTx s t).sinkAnswers = s.sinkAnswers := rfl
@[simp] theorem withTx_sinkOctets (t : TxEngine) : (withTx s t).sinkOctets = s.sinkOctets := rfl
@[simp] theorem withTx_schedule (t : TxEngine) : (withTx s t).schedule = s.schedule := rfl
@[simp] theorem withTx_freeCount (t : TxEngine) : (withTx s t).freeCount = s.freeCount := rfl

/-! ### withSource -/

@[simp] theorem withSource_params (src : List SrcEvent) : (withSource s src).params = s.params := rfl
@[simp] theorem withSource_rx (src : List SrcEvent) : (withSource s src).rx = s.rx := rfl
@[simp] theorem withSource_tx (src : List SrcEvent) : (withSource s src).tx = s.tx := rfl
@[simp] theorem withSource_host (src : List SrcEvent) : (withSource s src).host = s.host := rfl
@[simp] theorem withSource_source (src : List SrcEvent) : (withSource s src).source = src := rfl
@[simp] theorem withSource_sinkAnswers (src : List SrcEvent) : (withSource s src).sinkAnswers = s.sinkAnswers := rfl
@[simp] theorem withSource_sinkOctets (src : List SrcEvent) : (withSource s src).sinkOctets = s.sinkOctets := rfl
@[simp] theorem withSource_schedule (src : List SrcEvent) : (withSource s src).schedule = s.schedule := rfl
@[simp] theorem withSource_freeCount (src : List SrcEvent) : (withSource s src).freeCount = s.freeCount := rfl

/-! ### withPending -/

@[simp] theorem withPending_params (acts : List HostAction) : (withPending s acts).params = s.params := rfl
@[simp] theorem withPending_rx (acts : List HostAction) : (withPending s acts).rx = s.rx := rfl
@[simp] theorem withPending_tx (acts : List HostAction) : (withPending s acts).tx = s.tx := rfl
@[simp] theorem withPending_host (acts : List HostAction) : (withPending s acts).host = { s.host with pending := acts } := rfl
@[simp] theorem withPending_source (acts : List HostAction) : (withPending s acts).source = s.source := rfl
@[simp] theorem withPending_sinkAnswers (acts : List HostAction) : (withPending s acts).sinkAnswers = s.sinkAnswers := rfl
@[simp] theorem withPending_sinkOctets (acts : List HostAction) : (withPending s acts).sinkOctets = s.sinkOctets := rfl
@[simp] theorem withPending_schedule (acts : List HostAction) : (withPending s acts).schedule = s.schedule := rfl
@[simp] theorem withPending_freeCount (acts : List HostAction) : (withPending s acts).freeCount = s.freeCount := rfl

/-! ### withLastRead -/

@[simp] theorem withLastRead_params (v : HostValue) : (withLastRead s v).params = s.params := rfl
@[simp] theorem withLastRead_rx (v : HostValue) : (withLastRead s v).rx = s.rx := rfl
@[simp] theorem withLastRead_tx (v : HostValue) : (withLastRead s v).tx = s.tx := rfl
@[simp] theorem withLastRead_host (v : HostValue) : (withLastRead s v).host = { s.host with lastRead := some v } := rfl
@[simp] theorem withLastRead_source (v : HostValue) : (withLastRead s v).source = s.source := rfl
@[simp] theorem withLastRead_sinkAnswers (v : HostValue) : (withLastRead s v).sinkAnswers = s.sinkAnswers := rfl
@[simp] theorem withLastRead_sinkOctets (v : HostValue) : (withLastRead s v).sinkOctets = s.sinkOctets := rfl
@[simp] theorem withLastRead_schedule (v : HostValue) : (withLastRead s v).schedule = s.schedule := rfl
@[simp] theorem withLastRead_freeCount (v : HostValue) : (withLastRead s v).freeCount = s.freeCount := rfl

/-! ### withSchedule -/

@[simp] theorem withSchedule_params (sch : List Agent) : (withSchedule s sch).params = s.params := rfl
@[simp] theorem withSchedule_rx (sch : List Agent) : (withSchedule s sch).rx = s.rx := rfl
@[simp] theorem withSchedule_tx (sch : List Agent) : (withSchedule s sch).tx = s.tx := rfl
@[simp] theorem withSchedule_host (sch : List Agent) : (withSchedule s sch).host = s.host := rfl
@[simp] theorem withSchedule_source (sch : List Agent) : (withSchedule s sch).source = s.source := rfl
@[simp] theorem withSchedule_sinkAnswers (sch : List Agent) : (withSchedule s sch).sinkAnswers = s.sinkAnswers := rfl
@[simp] theorem withSchedule_sinkOctets (sch : List Agent) : (withSchedule s sch).sinkOctets = s.sinkOctets := rfl
@[simp] theorem withSchedule_schedule (sch : List Agent) : (withSchedule s sch).schedule = sch := rfl
@[simp] theorem withSchedule_freeCount (sch : List Agent) : (withSchedule s sch).freeCount = s.freeCount := rfl

/-! ### nextFree -/

@[simp] theorem nextFree_params : (nextFree s).params = s.params := rfl
@[simp] theorem nextFree_rx : (nextFree s).rx = s.rx := rfl
@[simp] theorem nextFree_tx : (nextFree s).tx = s.tx := rfl
@[simp] theorem nextFree_host : (nextFree s).host = s.host := rfl
@[simp] theorem nextFree_source : (nextFree s).source = s.source := rfl
@[simp] theorem nextFree_sinkAnswers : (nextFree s).sinkAnswers = s.sinkAnswers := rfl
@[simp] theorem nextFree_sinkOctets : (nextFree s).sinkOctets = s.sinkOctets := rfl
@[simp] theorem nextFree_schedule : (nextFree s).schedule = s.schedule := rfl
@[simp] theorem nextFree_freeCount : (nextFree s).freeCount = s.freeCount + 1 := rfl

/-! ### txComplete -/

@[simp] theorem txComplete_params : (txComplete s).params = s.params := rfl
@[simp] theorem txComplete_rx : (txComplete s).rx = s.rx := rfl
@[simp] theorem txComplete_tx : (txComplete s).tx = { s.tx with status := statusComplete s.tx.status } := rfl
@[simp] theorem txComplete_host : (txComplete s).host = s.host := rfl
@[simp] theorem txComplete_source : (txComplete s).source = s.source := rfl
@[simp] theorem txComplete_sinkAnswers : (txComplete s).sinkAnswers = s.sinkAnswers := rfl
@[simp] theorem txComplete_sinkOctets : (txComplete s).sinkOctets = s.sinkOctets := rfl
@[simp] theorem txComplete_schedule : (txComplete s).schedule = s.schedule := rfl
@[simp] theorem txComplete_freeCount : (txComplete s).freeCount = s.freeCount := rfl

/-! ### resetBlock -/

@[simp] theorem resetBlock_params : (resetBlock s).params = s.params := rfl
@[simp] theorem resetBlock_rx : (resetBlock s).rx = RxEngine.reset := rfl
@[simp] theorem resetBlock_tx : (resetBlock s).tx = TxEngine.reset := rfl
@[simp] theorem resetBlock_host : (resetBlock s).host = s.host := rfl
@[simp] theorem resetBlock_source : (resetBlock s).source = s.source := rfl
@[simp] theorem resetBlock_sinkAnswers : (resetBlock s).sinkAnswers = s.sinkAnswers := rfl
@[simp] theorem resetBlock_sinkOctets : (resetBlock s).sinkOctets = s.sinkOctets := rfl
@[simp] theorem resetBlock_schedule : (resetBlock s).schedule = s.schedule := rfl
@[simp] theorem resetBlock_freeCount : (resetBlock s).freeCount = s.freeCount := rfl

/-! ### rxGoto -/

@[simp] theorem rxGoto_params (q : RxState) : (rxGoto q s).params = s.params := rfl
@[simp] theorem rxGoto_rx (q : RxState) : (rxGoto q s).rx = { s.rx with state := q } := rfl
@[simp] theorem rxGoto_tx (q : RxState) : (rxGoto q s).tx = s.tx := rfl
@[simp] theorem rxGoto_host (q : RxState) : (rxGoto q s).host = s.host := rfl
@[simp] theorem rxGoto_source (q : RxState) : (rxGoto q s).source = s.source := rfl
@[simp] theorem rxGoto_sinkAnswers (q : RxState) : (rxGoto q s).sinkAnswers = s.sinkAnswers := rfl
@[simp] theorem rxGoto_sinkOctets (q : RxState) : (rxGoto q s).sinkOctets = s.sinkOctets := rfl
@[simp] theorem rxGoto_schedule (q : RxState) : (rxGoto q s).schedule = s.schedule := rfl
@[simp] theorem rxGoto_freeCount (q : RxState) : (rxGoto q s).freeCount = s.freeCount := rfl

/-! ### rxComplete -/

@[simp] theorem rxComplete_params (fr : Frame) : (rxComplete fr s).params = s.params := rfl
@[simp] theorem rxComplete_rx (fr : Frame) : (rxComplete fr s).rx = { s.rx with status := statusComplete s.rx.status, result := some fr } := rfl
@[simp] theorem rxComplete_tx (fr : Frame) : (rxComplete fr s).tx = s.tx := rfl
@[simp] theorem rxComplete_host (fr : Frame) : (rxComplete fr s).host = s.host := rfl
@[simp] theorem rxComplete_source (fr : Frame) : (rxComplete fr s).source = s.source := rfl
@[simp] theorem rxComplete_sinkAnswers (fr : Frame) : (rxComplete fr s).sinkAnswers = s.sinkAnswers := rfl
@[simp] theorem rxComplete_sinkOctets (fr : Frame) : (rxComplete fr s).sinkOctets = s.sinkOctets := rfl
@[simp] theorem rxComplete_schedule (fr : Frame) : (rxComplete fr s).schedule = s.schedule := rfl
@[simp] theorem rxComplete_freeCount (fr : Frame) : (rxComplete fr s).freeCount = s.freeCount := rfl

/-! ### raise (R331) -/

@[simp] theorem raise_rx_params (e : CmuxError) : (raise .rx e s).params = s.params := rfl
@[simp] theorem raise_rx_rx (e : CmuxError) : (raise .rx e s).rx = { s.rx with status := statusRaise e s.rx.status, result := none } := rfl
@[simp] theorem raise_rx_tx (e : CmuxError) : (raise .rx e s).tx = s.tx := rfl
@[simp] theorem raise_rx_host (e : CmuxError) : (raise .rx e s).host = s.host := rfl
@[simp] theorem raise_rx_source (e : CmuxError) : (raise .rx e s).source = s.source := rfl
@[simp] theorem raise_rx_sinkAnswers (e : CmuxError) : (raise .rx e s).sinkAnswers = s.sinkAnswers := rfl
@[simp] theorem raise_rx_sinkOctets (e : CmuxError) : (raise .rx e s).sinkOctets = s.sinkOctets := rfl
@[simp] theorem raise_rx_schedule (e : CmuxError) : (raise .rx e s).schedule = s.schedule := rfl
@[simp] theorem raise_rx_freeCount (e : CmuxError) : (raise .rx e s).freeCount = s.freeCount := rfl
@[simp] theorem raise_tx_params (e : CmuxError) : (raise .tx e s).params = s.params := rfl
@[simp] theorem raise_tx_rx (e : CmuxError) : (raise .tx e s).rx = s.rx := rfl
@[simp] theorem raise_tx_tx (e : CmuxError) : (raise .tx e s).tx = { s.tx with status := statusRaise e s.tx.status } := rfl
@[simp] theorem raise_tx_host (e : CmuxError) : (raise .tx e s).host = s.host := rfl
@[simp] theorem raise_tx_source (e : CmuxError) : (raise .tx e s).source = s.source := rfl
@[simp] theorem raise_tx_sinkAnswers (e : CmuxError) : (raise .tx e s).sinkAnswers = s.sinkAnswers := rfl
@[simp] theorem raise_tx_sinkOctets (e : CmuxError) : (raise .tx e s).sinkOctets = s.sinkOctets := rfl
@[simp] theorem raise_tx_schedule (e : CmuxError) : (raise .tx e s).schedule = s.schedule := rfl
@[simp] theorem raise_tx_freeCount (e : CmuxError) : (raise .tx e s).freeCount = s.freeCount := rfl

/-! ### txLatch -/

@[simp] theorem txLatch_params (octets : List Byte) : (txLatch octets s).params = s.params := rfl
@[simp] theorem txLatch_rx (octets : List Byte) : (txLatch octets s).rx = s.rx := rfl
@[simp] theorem txLatch_host (octets : List Byte) : (txLatch octets s).host = s.host := rfl
@[simp] theorem txLatch_source (octets : List Byte) : (txLatch octets s).source = s.source := rfl
@[simp] theorem txLatch_sinkAnswers (octets : List Byte) : (txLatch octets s).sinkAnswers = s.sinkAnswers := rfl
@[simp] theorem txLatch_sinkOctets (octets : List Byte) : (txLatch octets s).sinkOctets = s.sinkOctets := rfl
@[simp] theorem txLatch_schedule (octets : List Byte) : (txLatch octets s).schedule = s.schedule := rfl
@[simp] theorem txLatch_freeCount (octets : List Byte) : (txLatch octets s).freeCount = s.freeCount := rfl

/-! ### Status fields (R38) -/

variable (st : Status)

@[simp] theorem statusStart_phase : (statusStart st).phase = .busy := rfl
@[simp] theorem statusStart_err : (statusStart st).err = 0 := rfl
@[simp] theorem statusStart_ioKind : (statusStart st).ioKind = st.ioKind := rfl
@[simp] theorem statusComplete_phase : (statusComplete st).phase = .done := rfl
@[simp] theorem statusComplete_err : (statusComplete st).err = 0 := rfl
@[simp] theorem statusComplete_ioKind : (statusComplete st).ioKind = st.ioKind := rfl
@[simp] theorem statusAbort_phase : (statusAbort st).phase = .idle := rfl
@[simp] theorem statusAbort_err : (statusAbort st).err = 0 := rfl
@[simp] theorem statusAbort_ioKind : (statusAbort st).ioKind = st.ioKind := rfl
@[simp] theorem statusRaise_phase (e : CmuxError) : (statusRaise e st).phase = .error := rfl
@[simp] theorem statusRaise_err (e : CmuxError) : (statusRaise e st).err = errCode e := rfl
@[simp] theorem statusRaise_io_ioKind (k : IoKind) : (statusRaise (.io k) st).ioKind = k := rfl

/-- R332: no error has the code 0, and none has 6 or 7. -/
theorem errCode_range (e : CmuxError) : errCode e ≠ 0 ∧ (errCode e).toNat ≤ 5 := by
  cases e <;> exact ⟨by simp [errCode], by simp [errCode]⟩

theorem statusLegal_start (n : Nat) : statusLegal n (statusStart st) = true := by
  simp [statusLegal]

theorem statusLegal_complete (n : Nat) : statusLegal n (statusComplete st) = true := by
  simp [statusLegal]

theorem statusLegal_abort (n : Nat) : statusLegal n (statusAbort st) = true := by
  simp [statusLegal]

/-- R331, R332: an error leaves a legal RX status. -/
theorem statusLegal_raise (e : CmuxError) : statusLegal 5 (statusRaise e st) = true := by
  obtain ⟨h0, h5⟩ := errCode_range e
  simpa [statusLegal, h5] using h0

/-- R208: a sink fault leaves a legal TX status. -/
theorem statusLegal_raise_io (k : IoKind) : statusLegal 1 (statusRaise (.io k) st) = true := by
  simp [statusLegal, errCode]

end Sys2Proof.Machine
end

