-- ==== Sys2Proof/Laws/Memory.lean ====
section
/-! SUPPORT. The laws of the octet buffers: a read after a write, and that every memory operation keeps the
canonical form and the bounds. -/

namespace Sys2Proof.Machine

@[simp] theorem memRead_nil (i : Nat) : memRead [] i = memUnlisted := rfl

theorem memory_wf_cons (k : Nat) (v : Byte) (m : Memory) :
    Memory.wf ((k, v) :: m) = true ↔ v ≠ memUnlisted ∧ (∀ c ∈ m, k < c.1) ∧ Memory.wf m = true := by
  simp [Memory.wf, and_assoc]

@[simp] theorem memory_wf_nil : Memory.wf [] = true := rfl

@[simp] theorem memory_within_nil (n : Nat) : Memory.within n [] = true := rfl

theorem memory_within_iff (n : Nat) (m : Memory) : Memory.within n m = true ↔ ∀ c ∈ m, c.1 < n := by
  simp [Memory.within]

/-- An index below every listed index is not listed. -/
theorem memRead_below {m : Memory} {i : Nat} (h : ∀ c ∈ m, i < c.1) : memRead m i = memUnlisted := by
  induction m with
  | nil => rfl
  | cons c m ih =>
    have hc : i < c.1 := h c (by simp)
    have : i ≠ c.1 := by omega
    rw [memRead, if_neg this]
    exact ih fun d hd => h d (by simp [hd])

/-- A read after a write. -/
theorem memRead_memWrite {m : Memory} (hm : Memory.wf m = true) (i j : Nat) (b : Byte) :
    memRead (memWrite m i b) j = if j = i then b else memRead m j := by
  induction m with
  | nil =>
    by_cases hb : b = memUnlisted
    · simp [memWrite, hb]
    · simp [memWrite, hb, memRead]
  | cons c m ih =>
    obtain ⟨k, v⟩ := c
    obtain ⟨-, hlt, hm'⟩ := (memory_wf_cons k v m).1 hm
    have ih := ih hm'
    rcases Nat.lt_trichotomy i k with hik | hik | hik
    · by_cases hb : b = memUnlisted
      · have hi : memRead ((k, v) :: m) i = memUnlisted := by
          apply memRead_below
          intro c hc
          rcases List.mem_cons.1 hc with rfl | hc
          · exact hik
          · have := hlt c hc
            omega
        by_cases hji : j = i
        · subst hji
          simp [memWrite, hik, hb, hi]
        · simp [memWrite, hik, hb, hji]
      · simp [memWrite, hik, hb, memRead]
    · subst hik
      have hi : memRead m i = memUnlisted := memRead_below hlt
      by_cases hb : b = memUnlisted
      · by_cases hji : j = i
        · subst hji
          simp [memWrite, hb, hi]
        · simp [memWrite, hb, memRead, hji]
      · by_cases hji : j = i
        · simp [memWrite, hb, memRead, hji]
        · simp [memWrite, hb, memRead, hji]
    · have h1 : ¬ i < k := by omega
      have h2 : i ≠ k := by omega
      by_cases hjk : j = k
      · have : j ≠ i := by omega
        subst hjk
        simp [memWrite, h1, h2, memRead, this]
      · simp [memWrite, h1, h2, memRead, hjk, ih]

/-- What a write lists: the index written, or what was listed before. -/
theorem mem_memWrite {m : Memory} {i : Nat} {b : Byte} {c : Host.Cell} (h : c ∈ memWrite m i b) :
    c.1 = i ∨ c ∈ m := by
  induction m with
  | nil =>
    by_cases hb : b = memUnlisted
    · simp [memWrite, hb] at h
    · simp [memWrite, hb] at h
      exact .inl (by rw [h])
  | cons d m ih =>
    obtain ⟨k, v⟩ := d
    simp only [memWrite] at h
    split at h
    · split at h
      · exact .inr h
      · rcases List.mem_cons.1 h with rfl | h
        · exact .inl rfl
        · exact .inr h
    · split at h
      · rename_i hik
        split at h
        · exact .inr (by simp [h])
        · rcases List.mem_cons.1 h with rfl | h
          · exact .inl hik.symm
          · exact .inr (by simp [h])
      · rcases List.mem_cons.1 h with rfl | h
        · exact .inr (by simp)
        · rcases ih h with h | h
          · exact .inl h
          · exact .inr (by simp [h])

/-- A write keeps the canonical form. -/
theorem memWrite_wf {m : Memory} (hm : Memory.wf m = true) (i : Nat) (b : Byte) :
    Memory.wf (memWrite m i b) = true := by
  induction m with
  | nil =>
    by_cases hb : b = memUnlisted
    · simp [memWrite, hb]
    · rw [memWrite, if_neg hb, memory_wf_cons]
      exact ⟨hb, by simp, rfl⟩
  | cons c m ih =>
    obtain ⟨k, v⟩ := c
    obtain ⟨hv, hlt, hm'⟩ := (memory_wf_cons k v m).1 hm
    simp only [memWrite]
    split
    · rename_i hik
      split
      · exact hm
      · rename_i hb
        rw [memory_wf_cons]
        refine ⟨hb, ?_, hm⟩
        intro c hc
        rcases List.mem_cons.1 hc with rfl | hc
        · exact hik
        · have := hlt c hc
          omega
    · split
      · split
        · exact hm'
        · rename_i hb
          exact (memory_wf_cons k b m).2 ⟨hb, hlt, hm'⟩
      · rename_i h1 h2
        rw [memory_wf_cons]
        refine ⟨hv, ?_, ih hm'⟩
        intro c hc
        rcases mem_memWrite hc with h | h
        · omega
        · exact hlt c h

/-- A write inside the buffer keeps every listed index inside it. -/
theorem memWrite_within {n : Nat} {m : Memory} (hm : Memory.within n m = true) {i : Nat} (hi : i < n) (b : Byte) :
    Memory.within n (memWrite m i b) = true := by
  rw [memory_within_iff] at *
  intro c hc
  rcases mem_memWrite hc with h | h
  · omega
  · exact hm c h

/-- Writing a sequence keeps the canonical form. -/
theorem memWriteAll_wf {m : Memory} (hm : Memory.wf m = true) (i : Nat) (s : List Byte) :
    Memory.wf (memWriteAll m i s) = true := by
  induction s generalizing m i with
  | nil => exact hm
  | cons b s ih => exact ih (memWrite_wf hm i b) (i + 1)

/-- Writing a sequence inside the buffer keeps every listed index inside it. -/
theorem memWriteAll_within {n : Nat} {m : Memory} (hm : Memory.within n m = true) {i : Nat} {s : List Byte}
    (hi : i + s.length ≤ n) : Memory.within n (memWriteAll m i s) = true := by
  induction s generalizing m i with
  | nil => exact hm
  | cons b s ih =>
    rw [List.length_cons] at hi
    exact ih (memWrite_within hm (by omega) b) (by omega)

/-- A read after writing a sequence: the sequence's octet inside it, what was there before outside it. -/
theorem memRead_memWriteAll {m : Memory} (hm : Memory.wf m = true) (i : Nat) (s : List Byte) (j : Nat) :
    memRead (memWriteAll m i s) j = if i ≤ j ∧ j < i + s.length then s.getD (j - i) 0 else memRead m j := by
  induction s generalizing m i with
  | nil =>
    have : ¬ (i ≤ j ∧ j < i + ([] : List Byte).length) := by simp
    rw [if_neg this]
    rfl
  | cons b s ih =>
    rw [memWriteAll, ih (memWrite_wf hm i b), memRead_memWrite hm, List.length_cons]
    by_cases h1 : j = i
    · subst h1
      have h2 : ¬ (j + 1 ≤ j ∧ j < j + 1 + s.length) := by omega
      have h3 : j ≤ j ∧ j < j + (s.length + 1) := by omega
      simp [h3]
    · by_cases h2 : i + 1 ≤ j ∧ j < i + 1 + s.length
      · have h3 : i ≤ j ∧ j < i + (s.length + 1) := by omega
        have h4 : j - i = (j - (i + 1)) + 1 := by omega
        rw [if_pos h2, if_pos h3, h4, List.getD_cons_succ]
      · have h3 : ¬ (i ≤ j ∧ j < i + (s.length + 1)) := by omega
        rw [if_neg h2, if_neg h3, if_neg h1]

@[simp] theorem memReadRange_length (m : Memory) (i n : Nat) : (memReadRange m i n).length = n := by
  simp [memReadRange]

/-- The octets of a range, one more at the end. -/
theorem memReadRange_succ (m : Memory) (i n : Nat) :
    memReadRange m i (n + 1) = memReadRange m i n ++ [memRead m (i + n)] := by
  simp [memReadRange, List.range_succ]

/-- A write at or past the end of a range leaves the range as it was. -/
theorem memReadRange_memWrite {m : Memory} (hm : Memory.wf m = true) {i n k : Nat} (hk : i + n ≤ k) (b : Byte) :
    memReadRange (memWrite m k b) i n = memReadRange m i n := by
  apply List.map_congr_left
  intro j hj
  rw [List.mem_range] at hj
  rw [memRead_memWrite hm, if_neg (by omega)]

end Sys2Proof.Machine
end

