-- ==== Sys2Proof/Laws/Exec.lean ====
section
/-! SUPPORT. What each shared operation and each octet step can do, said once: an RX operation answers a state that
differs in the RX engine only, or one of the named faults; a TX emit step and a host action likewise. -/

namespace Sys2Proof.Machine

/-! ### Operations of the RX engine -/

/-- The answer is a next state that differs from `s` in the RX engine only. -/
def OnlyRx (s : State) (o : Result) : Prop := ∃ r : RxEngine, o = .next (withRx s r)

theorem onlyRx_of_withRx {s : State} {r : RxEngine} {o : Result} (h : OnlyRx (withRx s r) o) : OnlyRx s o := by
  obtain ⟨r', rfl⟩ := h
  exact ⟨r', rfl⟩

theorem onlyRx_raise (e : CmuxError) (s : State) : OnlyRx s (.next (raise .rx e s)) := ⟨_, rfl⟩

theorem onlyRx_rxGoto (q : RxState) (s : State) : OnlyRx s (.next (rxGoto q s)) := ⟨_, rfl⟩

theorem onlyRx_withRx (s : State) (r : RxEngine) : OnlyRx s (.next (withRx s r)) := ⟨r, rfl⟩

/-- A frame type's instruction answers a next state and changes the RX engine only (R159 to R161). -/
theorem exec_frameInstr_onlyRx (ft : FrameType) (pf : PollFinal) (s : State) :
    OnlyRx s (exec (frameInstr ft pf) s) := by
  cases ft with
  | sabm =>
    simp only [frameInstr, exec, execSabm]
    split
    · exact onlyRx_raise _ s
    · exact onlyRx_rxGoto _ s
  | uih =>
    simp only [frameInstr, exec, execUih]
    split
    · exact onlyRx_raise _ s
    · split
      · exact onlyRx_raise _ s
      · exact onlyRx_withRx _ _
  | ua => exact onlyRx_raise _ s
  | dm => exact onlyRx_raise _ s
  | disc => exact onlyRx_raise _ s
  | ui => exact onlyRx_raise _ s

/-- The information field lies in `rx_buf`: its payload is what follows the tag octet. -/
theorem rxPayload_some {s : State} (h : 1 ≤ s.rx.len.toNat ∧ s.rx.len.toNat ≤ 254) :
    rxPayload s = some (memReadRange s.rx.buf 1 (s.rx.len.toNat - 1)) := if_pos h

/-- The information field does not lie in `rx_buf`. -/
theorem rxPayload_none {s : State} (h : ¬ (1 ≤ s.rx.len.toNat ∧ s.rx.len.toNat ≤ 254)) : rxPayload s = none := if_neg h

theorem acceptInfo_onlyRx (cr : CommandResponse) (read : Except CmuxError InfoBody) (s : State) :
    OnlyRx s (acceptInfo cr read s) := by
  cases read with
  | error e => exact onlyRx_raise e s
  | ok body => exact onlyRx_withRx _ _

/-- A read rule on a field that lies in `rx_buf`. -/
theorem readInfo_of_payload {s : State} {P : List Byte} (h : rxPayload s = some P) (cr : CommandResponse)
    (rule : List Byte → Except CmuxError InfoBody) : readInfo cr rule s = acceptInfo cr (rule P) s := by
  simp [readInfo, h]

/-- A read rule on a field that does not lie in `rx_buf`. -/
theorem readInfo_of_no_payload {s : State} (h : rxPayload s = none) (cr : CommandResponse)
    (rule : List Byte → Except CmuxError InfoBody) : readInfo cr rule s = .fault .rxInfoLength := by
  simp [readInfo, h]

/-- The read rule of an information type, `none` for PSC and Test, which have none (R230, R250, R251). -/
def ruleOf (tags : InfoTags) : InfoType → Option (List Byte → Except CmuxError InfoBody)
  | .pn => some readPn
  | .psc => none
  | .cld => some readCld
  | .test => none
  | .fcOn => some readFcOn
  | .fcOff => some readFcOff
  | .msc => some readMsc
  | .nsc => some (readNsc tags)
  | .rpn => some readRpn
  | .rls => some readRls
  | .snc => some readSnc

/-- An information type's instruction applies its read rule, or raises UnsupportedOperation. -/
theorem exec_infoInstr (T : InfoType) (cr : CommandResponse) (s : State) :
    exec (infoInstr T cr) s = match ruleOf s.params.infoTags T with
      | some rule => readInfo cr rule s
      | none => .next (raise .rx .unsupportedOperation s) := by
  cases T <;> rfl

/-- An information type's instruction changes the RX engine only, or faults on a field that does not lie in `rx_buf`. -/
theorem exec_infoInstr_onlyRx (T : InfoType) (cr : CommandResponse) (s : State) :
    OnlyRx s (exec (infoInstr T cr) s) ∨ exec (infoInstr T cr) s = .fault .rxInfoLength := by
  rw [exec_infoInstr]
  cases ruleOf s.params.infoTags T with
  | none => exact .inl (onlyRx_raise _ s)
  | some rule =>
    cases h : rxPayload s with
    | none => exact .inr (readInfo_of_no_payload h cr rule)
    | some P =>
      left
      simp only [readInfo_of_payload h cr rule]
      exact acceptInfo_onlyRx cr _ s

/-- What an information type decoded from a tag octet is. -/
theorem decodeInfoTag_ok {tags : InfoTags} {g : Byte} {i : Instr} (h : decodeInfoTag tags g = .ok i) :
    ∃ T, classifyInfoTag tags g = some T ∧ i = infoInstr T (crOf g) := by
  simp only [decodeInfoTag] at h
  split at h
  · rename_i T hT
    exact ⟨T, hT, (Except.ok.inj h).symm⟩
  · cases h

/-- R163: the completed information field changes the RX engine only, or faults where it does not lie in `rx_buf`. -/
theorem rxRunInfoType_onlyRx (s : State) :
    OnlyRx s (rxRunInfoType s) ∨ rxRunInfoType s = .fault .rxInfoLength := by
  simp only [rxRunInfoType]
  split
  · exact .inl (onlyRx_raise _ s)
  · rename_i i h
    obtain ⟨T, -, rfl⟩ := decodeInfoTag_ok h
    exact exec_infoInstr_onlyRx T _ s

/-- R152 to R168: an octet step changes the RX engine only, or stops with one of the two index faults, in INFO. -/
theorem rxOctet_onlyRx (b : Byte) (s : State) :
    OnlyRx s (rxOctet b s) ∨ rxOctet b s = .fault .rxBufIndex ∨ rxOctet b s = .fault .rxInfoLength := by
  cases h : s.rx.state <;> simp only [rxOctet, h]
  case hunt =>
    simp only [rxHuntOctet]
    split
    · exact .inl (onlyRx_withRx _ _)
    · exact .inl (onlyRx_rxGoto _ s)
  case addr => exact .inl (onlyRx_withRx _ _)
  case type =>
    simp only [rxTypeOctet]
    split
    · exact .inl (onlyRx_of_withRx (onlyRx_raise _ _))
    · exact .inl (onlyRx_withRx _ _)
  case len1 =>
    simp only [rxLen1Octet]
    split
    · exact .inl (onlyRx_of_withRx (exec_frameInstr_onlyRx _ _ _))
    · exact .inl (onlyRx_withRx _ _)
  case len2 => exact .inl (onlyRx_of_withRx (exec_frameInstr_onlyRx _ _ _))
  case info =>
    simp only [rxInfoOctet]
    split
    · simp only [rxCheckInfoEnd]
      split
      · rcases rxRunInfoType_onlyRx (rxStoreInfo b s) with h | h
        · exact .inl (onlyRx_of_withRx h)
        · exact .inr (.inr h)
      · exact .inl (onlyRx_of_withRx (onlyRx_rxGoto _ _))
    · exact .inr (.inl rfl)
  case fcs =>
    simp only [rxFcsOctet]
    split
    · exact .inl (onlyRx_raise _ s)
    · exact .inl (onlyRx_rxGoto _ s)
  case close =>
    simp only [rxCloseOctet]
    split
    · exact .inl (onlyRx_raise _ s)
    · exact .inl ⟨_, rfl⟩

/-! ### The branches of the octet steps -/

/-- R156: a known frame type. -/
theorem rxTypeOctet_known {s : State} {b : Byte} {ft : FrameType} (h : classifyFrameType b = some ft) :
    rxTypeOctet b s =
      .next (withRx s { s.rx with typ := b, ftype := ft, crc := crcUpdate s.rx.crc b, state := .len1 }) := by
  simp only [rxTypeOctet, h]

/-- R156: an unknown frame type. -/
theorem rxTypeOctet_unknown {s : State} {b : Byte} (h : classifyFrameType b = none) :
    rxTypeOctet b s = .next (raise .rx .invalidFrameFormat (withRx s { s.rx with typ := b })) := by
  simp only [rxTypeOctet, h]

/-- R157: EA = 1. -/
theorem rxLen1Octet_last {s : State} {b : Byte} (h : b.getLsbD 0 = true) :
    rxLen1Octet b s = rxRunFrameType (withRx s { s.rx with crc := crcUpdate s.rx.crc b, len := frameLen1 b }) :=
  if_pos h

/-- R157: EA = 0. -/
theorem rxLen1Octet_more {s : State} {b : Byte} (h : b.getLsbD 0 = false) :
    rxLen1Octet b s = .next (withRx s { s.rx with crc := crcUpdate s.rx.crc b, len1 := b, state := .len2 }) :=
  if_neg (by rw [h]; exact Bool.false_ne_true)

/-- R160: a UIH length that fits. -/
theorem execUih_fits {s : State} (pf : PollFinal) (h : 1 ≤ s.rx.len.toNat ∧ s.rx.len.toNat ≤ 254) :
    execUih pf s = .next (withRx s { s.rx with cnt := 0, state := .info }) := by
  unfold execUih
  rw [if_neg (by show ¬ s.rx.len.toNat > 254; omega), if_neg]
  intro h0
  rw [h0] at h
  exact absurd h.1 (by decide)

/-- R162: an information octet that fits `rx_buf`. -/
theorem rxInfoOctet_fits {s : State} {b : Byte} (h : s.rx.cnt.toNat < 254) :
    rxInfoOctet b s = rxCheckInfoEnd (rxStoreInfo b s) := if_pos h

/-- R162, R163: the information field is complete. -/
theorem rxCheckInfoEnd_of_eq {s : State} (h : s.rx.cnt.toNat = s.rx.len.toNat) : rxCheckInfoEnd s = rxRunInfoType s :=
  if_pos h

/-- R162: the information field is not complete. -/
theorem rxCheckInfoEnd_of_ne {s : State} (h : s.rx.cnt.toNat ≠ s.rx.len.toNat) :
    rxCheckInfoEnd s = .next (rxGoto .info s) := if_neg h

/-- R163: the tag octet's instruction runs. -/
theorem rxRunInfoType_of_ok {s : State} {i : Instr} (h : decodeInfoTag s.params.infoTags (rxTagOctet s) = .ok i) :
    rxRunInfoType s = exec i s := by
  simp only [rxRunInfoType, h]

/-- R164: the FCS octet agrees. -/
theorem rxFcsOctet_ok {s : State} {b : Byte} (h : b = fcsOf s.rx.crc) :
    rxFcsOctet b s = .next (rxGoto .close s) := if_neg (not_not_intro h)

/-- R165: the closing flag. -/
theorem rxCloseOctet_flag (s : State) : rxCloseOctet flag s = .next (rxComplete (rxFrame s.rx) s) :=
  if_neg (not_not_intro rfl)

/-! ### A step of the RX engine -/

/-- R151: a step of the RX engine that moves takes one source answer while BUSY. -/
theorem rxStep_cases (s : State) :
    ((s.rx.status.phase ≠ .busy ∨ s.source = []) ∧ rxStep s = .next s) ∨
    ∃ e src, s.rx.status.phase = .busy ∧ s.source = e :: src ∧ rxStep s = rxEvent e (withSource s src) := by
  by_cases hb : s.rx.status.phase = .busy
  · cases hs : s.source with
    | nil => exact .inl ⟨.inr rfl, by simp [rxStep, hb, hs]⟩
    | cons e src => exact .inr ⟨e, src, hb, rfl, by simp [rxStep, hb, hs]⟩
  · exact .inl ⟨.inl hb, by simp [rxStep, hb]⟩

/-- R151 to R168: one source event changes the RX engine only, or stops with one of the two index faults. -/
theorem rxEvent_onlyRx (e : SrcEvent) (s : State) :
    OnlyRx s (rxEvent e s) ∨ rxEvent e s = .fault .rxBufIndex ∨ rxEvent e s = .fault .rxInfoLength := by
  cases e with
  | byte b => exact rxOctet_onlyRx b s
  | eof => exact .inl (onlyRx_raise _ s)
  | fault k => exact .inl (onlyRx_raise _ s)

/-! ### Operations of the TX engine -/

/-- R207: a step of the TX engine that moves takes one sink answer while BUSY. -/
theorem txStep_cases (s : State) :
    ((s.tx.status.phase ≠ .busy ∨ ¬ s.tx.idx.toNat < s.tx.len.toNat ∨ s.sinkAnswers = []) ∧ txStep s = .next s) ∨
    ∃ r ans, s.tx.status.phase = .busy ∧ s.tx.idx.toNat < s.tx.len.toNat ∧ s.sinkAnswers = r :: ans ∧
      txStep s = txEmit r { s with sinkAnswers := ans } := by
  by_cases hb : s.tx.status.phase = .busy
  · by_cases hi : s.tx.idx.toNat < s.tx.len.toNat
    · cases hs : s.sinkAnswers with
      | nil => exact .inl ⟨.inr (.inr rfl), by simp [txStep, hb, hi, hs]⟩
      | cons r ans => exact .inr ⟨r, ans, hb, hi, rfl, by simp [txStep, hb, hi, hs]⟩
    · exact .inl ⟨.inr (.inl hi), by simp [txStep, hi]⟩
  · exact .inl ⟨.inl hb, by simp [txStep, hb]⟩

theorem txCheckEnd_of_eq {s : State} (h : s.tx.idx = s.tx.len) : txCheckEnd s = txComplete s := if_pos h

theorem txCheckEnd_of_ne {s : State} (h : s.tx.idx ≠ s.tx.len) : txCheckEnd s = s := if_neg h

/-- R207, R209: what an accepted octet does. -/
theorem txAccept_eq (b : Byte) (s : State) :
    txAccept b s = { s with
      sinkOctets := s.sinkOctets ++ [b]
      tx := { s.tx with
        idx := s.tx.idx + 1
        status := if s.tx.idx + 1 = s.tx.len then statusComplete s.tx.status else s.tx.status } } := by
  by_cases h : s.tx.idx + 1 = s.tx.len
  · rw [if_pos h]
    exact txCheckEnd_of_eq h
  · rw [if_neg h]
    exact txCheckEnd_of_ne h

/-! ### Commands and host actions -/

/-- R122: what the decoder of CMD answers. -/
theorem decodeCmd_ok {c : BitVec 3} {i : Instr} (h : decodeCmd c = .ok i) :
    (c = 0b000#3 ∧ i = .nop) ∨ (c = 0b001#3 ∧ i = .rxStart) ∨ (c = 0b010#3 ∧ i = .rxAbort)
      ∨ (c = 0b101#3 ∧ i = .txStart) ∨ (c = 0b110#3 ∧ i = .txAbort) := by
  simp only [decodeCmd] at h
  split at h
  · cases h
    exact .inl ⟨‹_›, rfl⟩
  · split at h
    · cases h
      exact .inr (.inl ⟨‹_›, rfl⟩)
    · split at h
      · cases h
        exact .inr (.inr (.inl ⟨‹_›, rfl⟩))
      · split at h
        · cases h
          exact .inr (.inr (.inr (.inl ⟨‹_›, rfl⟩)))
        · split at h
          · cases h
            exact .inr (.inr (.inr (.inr ⟨‹_›, rfl⟩)))
          · cases h

/-- R212, R9: `build` of a valid descriptor answers a frame of 6 to 261 octets. -/
theorem build_ok (tags : InfoTags) {d : Frame} (h : d.wellFormed = true) :
    ∃ octets, build tags d = .ok octets ∧ 6 ≤ octets.length ∧ octets.length ≤ 261 := by
  cases d with
  | sabm id pf =>
    refine ⟨_, by rw [build, sabmCovered, eaWrite_ok (by omega)]; rfl, ?_, ?_⟩ <;> simp [envelope, eaGroups]
  | uih id cr pf info =>
    have hP := infoWrite_length_le tags (body := info.body) h
    have hg : eaGroups (1 + (infoWrite tags info.body).length) ≤ 2 ∧
        1 ≤ eaGroups (1 + (infoWrite tags info.body).length) := by
      rw [eaGroups_frame (by omega)]
      split <;> omega
    refine ⟨_, by simp only [build, uihCovered]; rw [eaWrite_ok (by omega)]; rfl, ?_, ?_⟩ <;> simp [envelope] <;> omega

/-- R200, R201: what TX_START can do. -/
theorem execTxStart_cases (s : State) :
    (s.tx.status.phase = .busy ∧ execTxStart s = .refused .hostProtocol) ∨
    (s.tx.status.phase ≠ .busy ∧ execTxStart s = .refused .badDescriptor) ∨
    ∃ d octets, s.tx.status.phase ≠ .busy ∧ s.tx.desc = some d ∧ d.wellFormed = true ∧
      build s.params.infoTags d = .ok octets ∧ 6 ≤ octets.length ∧ octets.length ≤ 261 ∧
      execTxStart s = .next (txLatch octets s) := by
  by_cases hb : s.tx.status.phase = .busy
  · exact .inl ⟨hb, by simp [execTxStart, hb]⟩
  · cases hd : s.tx.desc with
    | none => exact .inr (.inl ⟨hb, by simp [execTxStart, hb, hd]⟩)
    | some d =>
      by_cases hw : d.wellFormed = true
      · obtain ⟨octets, ho, h6, h261⟩ := build_ok s.params.infoTags hw
        exact .inr (.inr ⟨d, octets, hb, rfl, hw, ho, h6, h261, by simp [execTxStart, hb, hd, hw, ho]⟩)
      · exact .inr (.inl ⟨hb, by simp [execTxStart, hb, hd, hw]⟩)

/-- R32 to R36: what a host action can do. -/
inductive HostOutcome (a : HostAction) (s : State) : Result → Prop where
  /-- A command without effect: NOP, or an ABORT of an engine that is not BUSY (R123, R38). -/
  | same : HostOutcome a s (.next s)
  /-- RX_START (R150). -/
  | rxStart (ha : a = .writeCmd 0b001#3) (h : s.rx.status.phase ≠ .busy) : HostOutcome a s (.next (withRx s
      { s.rx with status := statusStart s.rx.status, result := none, buf := memClear, state := .hunt }))
  /-- RX_ABORT of a BUSY engine (R174). -/
  | rxAbort (ha : a = .writeCmd 0b010#3) (h : s.rx.status.phase = .busy) :
      HostOutcome a s (.next (withRx s { s.rx with status := statusAbort s.rx.status, result := none }))
  /-- TX_START (R200). -/
  | txStart (octets : List Byte) (ha : a = .writeCmd 0b101#3) (h : s.tx.status.phase ≠ .busy)
      (h6 : 6 ≤ octets.length) (h261 : octets.length ≤ 261) :
      HostOutcome a s (.next (txLatch octets s))
  /-- TX_ABORT of a BUSY engine (R210). -/
  | txAbort (ha : a = .writeCmd 0b110#3) (h : s.tx.status.phase = .busy) :
      HostOutcome a s (.next (withTx s { s.tx with status := statusAbort s.tx.status }))
  /-- A write of TX_DESC (R35). -/
  | desc (d : Frame) (ha : a = .writeTxDesc d) : HostOutcome a s (.next (withTx s { s.tx with desc := some d }))
  /-- A read that shows a value the block holds (R34, R35). -/
  | read (v : HostValue) : HostOutcome a s (.next (withLastRead s v))
  /-- A read that may show a free value (R33, R35, R36). -/
  | readFree (v : HostValue) : HostOutcome a s (.next (nextFree (withLastRead s v)))
  /-- A refusal (R342). -/
  | refused (r : Refusal) (h : r = .hostProtocol ∨ r = .resultNotValid ∨ r = .badDescriptor) :
      HostOutcome a s (.refused r)

/-- R32 to R36, R342: every host action ends in one of these ways. -/
theorem hostAct_outcome (a : HostAction) (s : State) : HostOutcome a s (hostAct a s) := by
  have hp : ∀ a, HostOutcome a s (.refused .hostProtocol) := fun _ => .refused _ (.inl rfl)
  cases a with
  | writeCmd c =>
    simp only [hostAct, hostWriteCmd]
    split
    · rename_i i h
      rcases decodeCmd_ok h with ⟨rfl, rfl⟩ | ⟨rfl, rfl⟩ | ⟨rfl, rfl⟩ | ⟨rfl, rfl⟩ | ⟨rfl, rfl⟩
      · exact .same
      · simp only [exec, execRxStart]
        split
        · exact hp _
        · exact .rxStart rfl ‹_›
      · simp only [exec, execRxAbort]
        split
        · exact .rxAbort rfl ‹_›
        · exact .same
      · simp only [exec]
        rcases execTxStart_cases s with ⟨-, h⟩ | ⟨-, h⟩ | ⟨d, octets, hb, -, -, -, h6, h261, h⟩ <;> rw [h]
        · exact hp _
        · exact .refused _ (.inr (.inr rfl))
        · exact .txStart octets rfl hb h6 h261
      · simp only [exec, execTxAbort]
        split
        · exact .txAbort rfl ‹_›
        · exact .same
    · exact hp _
  | writeTxDesc d => exact .desc d rfl
  | writeRxStatus => exact hp _
  | writeRxResult => exact hp _
  | writeTxStatus => exact hp _
  | readCmd => exact hp _
  | readRxStatus => exact .readFree _
  | readTxStatus => exact .readFree _
  | readRxResult =>
    simp only [hostAct, hostReadRxResult]
    split
    · exact .read _
    · exact .refused _ (.inr (.inl rfl))
  | readTxDesc =>
    simp only [hostAct, hostReadTxDesc]
    split
    · exact .read _
    · exact .readFree _

end Sys2Proof.Machine
end

