-- ==== Sys2Proof/Laws/PerInstr.lean ====
section
/-! SUPPORT. A statement about every instruction as syntax: its code under the default `INFO_TAG` is the word that
its row of spec/opcode_table.json gives, in the bits that the row's mask fixes. -/

namespace Sys2Proof.Laws.TableRow

/-- The mask of the row, by its slot (R122, R105, R110). -/
def mask (i : Instr) : Byte :=
  match i.slot with
  | .cmd => 0b111#8
  | .frameType => 0xEF#8
  | .infoTag => 0xFC#8

/-- The `match` value of the row. -/
def value : Instr → Byte
  | .nop => 0x00#8
  | .rxStart => 0x01#8
  | .rxAbort => 0x02#8
  | .txStart => 0x05#8
  | .txAbort => 0x06#8
  | .sabm _ => 0x2F#8
  | .ua _ => 0x63#8
  | .dm _ => 0x0F#8
  | .disc _ => 0x43#8
  | .uih _ => 0xEF#8
  | .ui _ => 0x03#8
  | .pn _ => 0x80#8
  | .psc _ => 0x40#8
  | .cld _ => 0xC0#8
  | .test _ => 0x20#8
  | .fcOn _ => 0xA0#8
  | .fcOff _ => 0x60#8
  | .msc _ => 0xE0#8
  | .nsc _ => 0x10#8
  | .rpn _ => 0x90#8
  | .rls _ => 0x50#8
  | .snc _ => 0xD0#8

/-- The row's word, in the row's fixed bits. -/
def Statement (i : Instr) : Prop := encode defaultInfoTags i &&& mask i = value i

theorem nop : Statement .nop := rfl

theorem rxStart : Statement .rxStart := rfl

theorem rxAbort : Statement .rxAbort := rfl

theorem txStart : Statement .txStart := rfl

theorem txAbort : Statement .txAbort := rfl

theorem sabm (pf : PollFinal) : Statement (.sabm pf) := by cases pf <;> rfl

theorem ua (pf : PollFinal) : Statement (.ua pf) := by cases pf <;> rfl

theorem dm (pf : PollFinal) : Statement (.dm pf) := by cases pf <;> rfl

theorem disc (pf : PollFinal) : Statement (.disc pf) := by cases pf <;> rfl

theorem uih (pf : PollFinal) : Statement (.uih pf) := by cases pf <;> rfl

theorem ui (pf : PollFinal) : Statement (.ui pf) := by cases pf <;> rfl

theorem pn (cr : CommandResponse) : Statement (.pn cr) := by cases cr <;> rfl

theorem psc (cr : CommandResponse) : Statement (.psc cr) := by cases cr <;> rfl

theorem cld (cr : CommandResponse) : Statement (.cld cr) := by cases cr <;> rfl

theorem test (cr : CommandResponse) : Statement (.test cr) := by cases cr <;> rfl

theorem fcOn (cr : CommandResponse) : Statement (.fcOn cr) := by cases cr <;> rfl

theorem fcOff (cr : CommandResponse) : Statement (.fcOff cr) := by cases cr <;> rfl

theorem msc (cr : CommandResponse) : Statement (.msc cr) := by cases cr <;> rfl

theorem nsc (cr : CommandResponse) : Statement (.nsc cr) := by cases cr <;> rfl

theorem rpn (cr : CommandResponse) : Statement (.rpn cr) := by cases cr <;> rfl

theorem rls (cr : CommandResponse) : Statement (.rls cr) := by cases cr <;> rfl

theorem snc (cr : CommandResponse) : Statement (.snc cr) := by cases cr <;> rfl

end Sys2Proof.Laws.TableRow
end

