-- ==== Sys2Proof/Laws/Sound.lean ====
section
/-! SUPPORT. The soundness predicates of Safety.lean as propositions, and the length of a started frame. -/

namespace Sys2Proof.Machine

theorem rxSound_iff (r : RxEngine) : rxSound r = true ↔
    statusLegal 5 r.status = true ∧ resultLegal r = true ∧ (r.status.phase = .busy → rxProgress r = true) ∧
      Memory.wf r.buf = true ∧ Memory.within 254 r.buf = true := by
  have h254 : rxBufLen = 254 := rfl
  simp only [rxSound, Bool.and_eq_true, Bool.or_eq_true, bne_iff_ne, ne_eq, and_assoc, h254]
  refine and_congr_right fun _ => and_congr_right fun _ => and_congr_left fun _ => ?_
  by_cases h : r.status.phase = .busy <;> simp [h]

theorem txSound_iff (t : TxEngine) : txSound t = true ↔
    statusLegal 1 t.status = true ∧
      (t.status.phase = .busy → t.idx.toNat < t.len.toNat ∧ 6 ≤ t.len.toNat ∧ t.len.toNat ≤ 261) ∧
      Memory.wf t.buf = true ∧ Memory.within 261 t.buf = true := by
  have h261 : txBufLen = 261 := rfl
  simp only [txSound, txProgress, Bool.and_eq_true, Bool.or_eq_true, bne_iff_ne, ne_eq, and_assoc, h261,
    decide_eq_true_eq]
  refine and_congr_right fun _ => and_congr_left fun _ => ?_
  by_cases h : t.status.phase = .busy <;> simp [h]

/-- R162: the position of a decode in INFO. -/
theorem rxProgress_info {r : RxEngine} (h : r.state = .info) : rxProgress r = true ↔
    rxTypeKnown r = true ∧ r.ftype = .uih ∧ r.len.toNat ≤ 254 ∧ r.cnt.toNat < r.len.toNat := by
  have h254 : maxInfoLen = 254 := rfl
  simp only [rxProgress, h, Bool.and_eq_true, beq_iff_eq, decide_eq_true_eq, and_assoc, h254]

/-- An octet count below the buffer's length counts up without wrapping. -/
theorem cnt_succ {c : BitVec 8} (h : c.toNat < 254) : (c + 1).toNat = c.toNat + 1 := by
  simp
  omega

end Sys2Proof.Machine
end

