-- ==== Sys2Proof/Tests/Slice0.lean ====
section
/-! SUPPORT. Small tests, whose expected results are the spec's own (its vectors, or hand calculation from a named
rule), and for each obligation with hypotheses a witness of each of its clauses. -/

namespace Sys2Proof.Tests

open Sys2Proof.Machine

/-! ## Ill-formed terms, one for each check -/

/-- D28: two types with one tag. -/
theorem test_infoTags_distinct : ({ defaultInfoTags with snc := 0x80#8 } : InfoTags).distinct = false := by decide

/-- R10: a tag with bit 1 set. -/
theorem test_infoTags_lowBitsZero : ({ defaultInfoTags with pn := 0x82#8 } : InfoTags).lowBitsZero = false := by decide

/-- R10: the tag 0x00. -/
theorem test_infoTags_nonZero : ({ defaultInfoTags with nsc := 0x00#8 } : InfoTags).nonZero = false := by decide

/-- R10: each of the three checks refuses the whole table. -/
theorem test_infoTags_wellFormed : ({ defaultInfoTags with snc := 0x80#8 } : InfoTags).wellFormed = false
    ∧ ({ defaultInfoTags with pn := 0x82#8 } : InfoTags).wellFormed = false
    ∧ ({ defaultInfoTags with nsc := 0x00#8 } : InfoTags).wellFormed = false
    ∧ defaultInfoTags.wellFormed = true := by decide

/-- R60: a `raw` of no octet, and of 254. -/
theorem test_raw_length : rawLengthOk [] = false ∧ rawLengthOk (List.replicate 254 0x00#8) = false
    ∧ rawLengthOk [0x07#8] = true := by decide +kernel

/-- R60, R201: a descriptor whose body is not valid. -/
theorem test_frame_wellFormed : (Frame.uih 1 .command .final ⟨.command, .snc []⟩).wellFormed = false
    ∧ (Frame.uih 1 .command .final ⟨.command, .rpn []⟩).wellFormed = false := by decide

/-- R124: a reserved command; R107: no frame type; R113: no information type. -/
theorem test_decode_refuses : (decode defaultInfoTags .cmd 0b00000011#8).isOk = false
    ∧ (decode defaultInfoTags .cmd 0b00000100#8).isOk = false ∧ (decode defaultInfoTags .cmd 0b00000111#8).isOk = false
    ∧ (decode defaultInfoTags .cmd 0b00001001#8).isOk = false
    ∧ (decode defaultInfoTags .frameType 0b00000000#8).isOk = false
    ∧ (decode defaultInfoTags .infoTag 0b00001100#8).isOk = false := by decide

/-! ## Words written out from the spec's encodings (R122; R105, R106: the key with bit 4 for P/F; R110, R112: the key
with bit 1 for C/R, bit 0 ignored) -/

theorem test_decode_nop : decode defaultInfoTags .cmd 0b00000000#8 = .ok (.nop) := rfl

theorem test_decode_rxStart : decode defaultInfoTags .cmd 0b00000001#8 = .ok (.rxStart) := rfl

theorem test_decode_rxAbort : decode defaultInfoTags .cmd 0b00000010#8 = .ok (.rxAbort) := rfl

theorem test_decode_txStart : decode defaultInfoTags .cmd 0b00000101#8 = .ok (.txStart) := rfl

theorem test_decode_txAbort : decode defaultInfoTags .cmd 0b00000110#8 = .ok (.txAbort) := rfl

theorem test_decode_sabm : decode defaultInfoTags .frameType 0b00111111#8 = .ok (.sabm .poll) := rfl

theorem test_decode_ua : decode defaultInfoTags .frameType 0b01110011#8 = .ok (.ua .poll) := rfl

theorem test_decode_dm : decode defaultInfoTags .frameType 0b00001111#8 = .ok (.dm .final) := rfl

theorem test_decode_disc : decode defaultInfoTags .frameType 0b01010011#8 = .ok (.disc .poll) := rfl

theorem test_decode_uih : decode defaultInfoTags .frameType 0b11101111#8 = .ok (.uih .final) := rfl

theorem test_decode_ui : decode defaultInfoTags .frameType 0b00010011#8 = .ok (.ui .poll) := rfl

theorem test_decode_pn : decode defaultInfoTags .infoTag 0b10000010#8 = .ok (.pn .command) := rfl

theorem test_decode_psc : decode defaultInfoTags .infoTag 0b01000001#8 = .ok (.psc .response) := rfl

theorem test_decode_cld : decode defaultInfoTags .infoTag 0b11000010#8 = .ok (.cld .command) := rfl

theorem test_decode_test : decode defaultInfoTags .infoTag 0b00100011#8 = .ok (.test .command) := rfl

theorem test_decode_fcOn : decode defaultInfoTags .infoTag 0b10100000#8 = .ok (.fcOn .response) := rfl

theorem test_decode_fcOff : decode defaultInfoTags .infoTag 0b01100010#8 = .ok (.fcOff .command) := rfl

theorem test_decode_msc : decode defaultInfoTags .infoTag 0b11100011#8 = .ok (.msc .command) := rfl

theorem test_decode_nsc : decode defaultInfoTags .infoTag 0b00010000#8 = .ok (.nsc .response) := rfl

theorem test_decode_rpn : decode defaultInfoTags .infoTag 0b10010010#8 = .ok (.rpn .command) := rfl

theorem test_decode_rls : decode defaultInfoTags .infoTag 0b01010001#8 = .ok (.rls .response) := rfl

theorem test_decode_snc : decode defaultInfoTags .infoTag 0b11010010#8 = .ok (.snc .command) := rfl

/-! ## The codecs: vectors of `95_test_vectors.md` -/

/-- K1 to K3, K6 to K8. -/
theorem test_crc8 : crc8 [] = 0xFF#8 ∧ crc8 [0x00#8] = 0xCF#8 ∧ crc8 [0xFF#8] = 0x00#8
    ∧ crc8 [0x0B#8, 0x3F#8, 0x01#8] = 0xA6#8 ∧ crc8 [0xF9#8] = 0xE4#8
    ∧ crc8 [0x07#8, 0xEF#8, 0x03#8, 0x82#8] = 0x47#8 := by decide +kernel

/-- K4: "123456789". -/
theorem test_fcs : fcs [0x31#8, 0x32#8, 0x33#8, 0x34#8, 0x35#8, 0x36#8, 0x37#8, 0x38#8, 0x39#8] = 0x2F#8 := by decide +kernel

/-- L2.2: the writer. -/
theorem test_eaWrite : eaWrite 127 = .ok [0xFF#8] ∧ eaWrite 128 = .ok [0x02#8, 0x01#8]
    ∧ eaWrite 254 = .ok [0x02#8, 0xFD#8] ∧ eaWrite 16384 = .ok [0x02#8, 0x00#8, 0x01#8]
    ∧ eaWrite 268435455 = .ok [0xFE#8, 0xFE#8, 0xFE#8, 0xFF#8] ∧ eaWrite 268435456 = .error .eaTooLarge :=
  ⟨rfl, rfl, rfl, rfl, rfl, rfl⟩

/-- L2.2: the reader: a longer form, an octet left, and the fourth octet with EA = 0. -/
theorem test_eaRead : eaRead defaultParams (srcOctets [0x00#8, 0x01#8]) = (.value 0, [])
    ∧ eaRead defaultParams (srcOctets [0x02#8, 0x03#8, 0x05#8]) = (.value 129, [.byte 0x05#8])
    ∧ eaRead defaultParams (srcOctets [0x00#8, 0x00#8, 0x00#8, 0x00#8, 0x01#8]) = (.refused .eaOverflow, [.byte 0x01#8])
    ∧ eaRead defaultParams [.byte 0x00#8, .eof] = (.raised (.io .unexpectedEof), []) := by decide

/-- L2.2: EA of the second octet is ignored. -/
theorem test_frameLen2 : frameLen2 0x02#8 0xFE#8 = 255#14 ∧ frameLen2 0x02#8 0xFF#8 = 255#14
    ∧ frameLen2 0xFE#8 0xFF#8 = 16383#14 ∧ frameLen2 0x04#8 0x01#8 = 256#14 := by decide

/-- E1, E4. -/
theorem test_build_sabm : build defaultInfoTags (.sabm 2 .poll) = .ok [0xF9#8, 0x0B#8, 0x3F#8, 0x01#8, 0x59#8, 0xF9#8]
    ∧ build defaultInfoTags (.sabm 63 .final) = .ok [0xF9#8, 0xFF#8, 0x2F#8, 0x01#8, 0x6C#8, 0xF9#8] := by decide +kernel

/-- E5, E8: no payload. -/
theorem test_build_pn_fcOff : build defaultInfoTags (.uih 1 .command .final ⟨.command, .pn⟩)
      = .ok [0xF9#8, 0x07#8, 0xEF#8, 0x03#8, 0x82#8, 0xB8#8, 0xF9#8]
    ∧ build defaultInfoTags (.uih 0 .response .final ⟨.response, .fcOff⟩)
      = .ok [0xF9#8, 0x01#8, 0xEF#8, 0x03#8, 0x60#8, 0x59#8, 0xF9#8] := by decide +kernel

/-- E9, E10: EA of Control and Break forced. -/
theorem test_build_msc : build defaultInfoTags (.uih 1 .command .final ⟨.command, .msc 2 .command 0x00#8 (some 0x00#8)⟩)
      = .ok [0xF9#8, 0x07#8, 0xEF#8, 0x09#8, 0xE2#8, 0x0A#8, 0x01#8, 0x01#8, 0x4E#8, 0xF9#8]
    ∧ build defaultInfoTags (.uih 1 .command .final ⟨.command, .msc 2 .command 0x8C#8 none⟩)
      = .ok [0xF9#8, 0x07#8, 0xEF#8, 0x07#8, 0xE2#8, 0x0A#8, 0x8D#8, 0xEC#8, 0xF9#8] := by decide +kernel

/-- L2.3: NSC, RLS (not EA-forced), RPN with an octet 0xF9. -/
theorem test_build_others : build defaultInfoTags (.uih 0 .response .final ⟨.response, .nsc .test .command⟩)
      = .ok [0xF9#8, 0x01#8, 0xEF#8, 0x05#8, 0x10#8, 0x22#8, 0xD0#8, 0xF9#8]
    ∧ build defaultInfoTags (.uih 63 .command .poll ⟨.response, .rls 63 .response 0xFF#8⟩)
      = .ok [0xF9#8, 0xFF#8, 0xFF#8, 0x07#8, 0x50#8, 0xFC#8, 0xFF#8, 0x37#8, 0xF9#8]
    ∧ build defaultInfoTags (.uih 2 .command .final ⟨.command, .rpn [0xF9#8]⟩)
      = .ok [0xF9#8, 0x0B#8, 0xEF#8, 0x05#8, 0x92#8, 0xF9#8, 0x0D#8, 0xF9#8] := by decide +kernel

/-- R252's example, and a value wider than its field. -/
theorem test_control : controlWithDv 1 (controlWithRtc 1 controlDefault) = 0x84#8 ∧ forceEa 0x84#8 = 0x85#8
    ∧ controlWithReserved 7 0x8D#8 = 0xBD#8 ∧ controlWithReserved 4 0x8D#8 = 0x8D#8 ∧ breakEa 0x41#8 = true
    ∧ breakDefault = 0x00#8 := by decide

/-! ## One step or one meaning each -/

/-- A field of the next state, if there is one. -/
def after {α : Type} (o : Result) (f : State → α) : Option α :=
  match o with
  | .next s => some (f s)
  | .fault _ => none
  | .refused _ => none

/-- An RX engine that is BUSY in `q`. -/
def rxIn (q : RxState) : RxEngine := { RxEngine.reset with status := ⟨.busy, 0, .brokenPipe⟩, state := q }

/-- A BUSY RX engine at the end of a UIH's information field of `n` octets. -/
def rxField (n : BitVec 14) (buf : Memory) : RxEngine :=
  { rxIn .info with typ := 0xEF#8, ftype := .uih, len := n, buf := buf }

/-- The state after reset but for its RX engine. -/
def ofRx (r : RxEngine) : State := { State.reset with rx := r }

/-- The RX engine `r` is about to take `e`. -/
def takeRx (r : RxEngine) (e : SrcEvent) : State := { State.reset with rx := r, source := [e], schedule := [.rx] }

/-- A TX engine that is BUSY with `len` octets latched and `idx` of them emitted. -/
def txIn (len idx : BitVec 9) : TxEngine :=
  { TxEngine.reset with status := ⟨.busy, 0, .brokenPipe⟩, len := len, idx := idx }

/-- The state after reset but for its TX engine. -/
def ofTx (t : TxEngine) : State := { State.reset with tx := t }

/-- The TX engine `t` is about to have the answer `r`. -/
def takeTx (t : TxEngine) (r : SinkAnswer) : State :=
  { State.reset with tx := t, sinkAnswers := [r], schedule := [.tx] }

/-- The host is about to do `a`. -/
def actHost (s : State) (a : HostAction) : State := { s with host := ⟨[a], none⟩, schedule := [.host] }

/-- R123. -/
theorem test_nop : exec .nop (ofRx (rxIn .addr)) = .next (ofRx (rxIn .addr)) := rfl

/-- R150: a START after an error. -/
theorem test_rxStart : after (exec .rxStart (ofRx { rxIn .close with status := ⟨.error, 3, .brokenPipe⟩ }))
    (fun s => (s.rx.status.phase, s.rx.status.err, s.rx.state)) = some (.busy, 0, .hunt) := by decide

/-- R174. -/
theorem test_rxAbort : after (exec .rxAbort (ofRx (rxIn .info))) (fun s => (s.rx.status.phase, s.rx.result))
    = some (.idle, none) := by decide

/-- R200, E1: the frame is latched. -/
theorem test_txStart : after (exec .txStart (ofTx { TxEngine.reset with desc := some (.sabm 2 .poll) }))
    (fun s => (s.tx.len, s.tx.idx, memReadRange s.tx.buf 0 6))
    = some (6, 0, [0xF9#8, 0x0B#8, 0x3F#8, 0x01#8, 0x59#8, 0xF9#8]) := by decide +kernel

/-- R201: TX_DESC never written. -/
theorem test_txStart_refused : exec .txStart State.reset = .refused .badDescriptor := rfl

/-- R210: an ABORT of an engine that is not BUSY. -/
theorem test_txAbort : after (exec .txAbort (ofTx { txIn 6 6 with status := ⟨.done, 0, .brokenPipe⟩ }))
    (fun s => s.tx.status.phase) = some .done := by decide

/-- D10: a SABM with a nonzero length. -/
theorem test_sabm : after (exec (.sabm .poll) (ofRx { rxIn .len1 with len := 1 })) (fun s => s.rx.status.err)
    = some 5 := by decide

/-- R160: the longest information field, and one octet more. -/
theorem test_uih : after (exec (.uih .final) (ofRx { rxIn .len2 with len := 254 })) (fun s => s.rx.state) = some .info
    ∧ after (exec (.uih .final) (ofRx { rxIn .len2 with len := 255 })) (fun s => s.rx.status.err) = some 3 := by decide

/-- R161. -/
theorem test_ua_dm_disc_ui : after (exec (.ua .poll) (ofRx (rxIn .len1))) (fun s => s.rx.status.err) = some 4
    ∧ after (exec (.dm .poll) (ofRx (rxIn .len1))) (fun s => s.rx.status.err) = some 4
    ∧ after (exec (.disc .poll) (ofRx (rxIn .len1))) (fun s => s.rx.status.err) = some 4
    ∧ after (exec (.ui .poll) (ofRx (rxIn .len1))) (fun s => s.rx.status.phase) = some .error := by decide

/-- R232, R234, R236, R238: the tag octet alone; a payload octet. -/
theorem test_pn_cld_fcOff_fcOn : after (exec (.pn .command) (ofRx (rxField 1 []))) (fun s => s.rx.info)
      = some ⟨.command, .pn⟩
    ∧ after (exec (.cld .response) (ofRx (rxField 1 []))) (fun s => s.rx.info) = some ⟨.response, .cld⟩
    ∧ after (exec (.fcOff .command) (ofRx (rxField 1 []))) (fun s => s.rx.info) = some ⟨.command, .fcOff⟩
    ∧ after (exec (.fcOn .command) (ofRx (rxField 2 []))) (fun s => s.rx.status.err) = some 5 := by decide

/-- R240: DLCI 2, Command, Control 0x8C kept as received, no Break. -/
theorem test_msc : after (exec (.msc .command) (ofRx (rxField 3 [(1, 0x0B#8), (2, 0x8C#8)]))) (fun s => s.rx.info)
    = some ⟨.command, .msc 2 .command 0x8C#8 none⟩ := by decide

/-- R242: the inner tag 0x42 is PSC with Command; 0x0C is no type. -/
theorem test_nsc : after (exec (.nsc .response) (ofRx (rxField 2 [(1, 0x42#8)]))) (fun s => s.rx.info)
      = some ⟨.response, .nsc .psc .command⟩
    ∧ after (exec (.nsc .response) (ofRx (rxField 2 [(1, 0x0C#8)]))) (fun s => s.rx.status.err) = some 3 := by decide

/-- R244, R248. -/
theorem test_rpn_snc : after (exec (.rpn .command) (ofRx (rxField 2 [(1, 0xF9#8)]))) (fun s => s.rx.info)
      = some ⟨.command, .rpn [0xF9#8]⟩
    ∧ after (exec (.snc .command) (ofRx (rxField 3 [(1, 0x0B#8), (2, 0x01#8)]))) (fun s => s.rx.info)
      = some ⟨.command, .snc [0x0B#8, 0x01#8]⟩ := by decide

/-- R246: DLCI 5, Command, status 0x03. -/
theorem test_rls : after (exec (.rls .command) (ofRx (rxField 3 [(1, 0x16#8), (2, 0x03#8)]))) (fun s => s.rx.info)
    = some ⟨.command, .rls 5 .command 0x03#8⟩ := by decide

/-- R250, R251. -/
theorem test_psc_test : after (exec (.psc .command) (ofRx (rxField 1 []))) (fun s => s.rx.status.err) = some 4
    ∧ after (exec (.test .command) (ofRx (rxField 2 []))) (fun s => s.rx.status.err) = some 4 := by decide

/-- R152, R171: a flag where an address is due is an address. -/
theorem test_addr_flag : after (step (takeRx (rxIn .addr) (.byte 0xF9#8))) (fun s => (s.rx.addr, s.rx.state))
    = some (0xF9#8, .type) := by decide

/-- R153, R154: the end of the source. -/
theorem test_eof : after (step (takeRx (rxIn .hunt) .eof)) (fun s => (s.rx.status.err, s.rx.status.ioKind))
      = some (1, .brokenPipe)
    ∧ after (step (takeRx (rxIn .type) .eof)) (fun s => (s.rx.status.err, s.rx.status.ioKind))
      = some (1, .unexpectedEof) := by decide

/-- R208: a sink fault: the octet is not emitted. -/
theorem test_sink_fault : after (step (takeTx (txIn 6 2) (.fault .unexpectedEof)))
    (fun s => (s.sinkOctets, s.tx.status.ioKind)) = some ([], .unexpectedEof) := by decide

/-- R370: reset in the middle of both transactions. -/
theorem test_reset : after (step { takeRx (rxIn .info) .eof with tx := txIn 6 2, schedule := [.reset] })
    (fun s => (s.rx.status.phase, s.tx.status.phase, s.source)) = some (.idle, .idle, [.eof]) := by decide

/-- A word of the table, placed, is the instruction the next step runs (log 20). -/
theorem test_withFetchWord : after (step (State.reset.withFetchWord 3 0b001)) (fun s => s.rx.status.phase) = some .busy
    ∧ after (step (State.reset.withFetchWord 8 0x2F)) (fun s => s.rx.state) = some .fcs
    ∧ after (step (State.reset.withFetchWord 8 0xE0)) (fun s => s.rx.state) = some .fcs := by decide

/-! ## Witnesses: a state and operands that meet the hypotheses of each clause of each statement -/

theorem witness_ResetEventDropsTransactions :
    ({ takeRx (rxIn .info) .eof with tx := txIn 6 2, schedule := [.reset, .rx] } : State).schedule
      = .reset :: [.rx] := rfl

theorem witness_NopChangesNothing :
    HostActs (actHost (ofRx (rxIn .info)) (.writeCmd 0b000#3)) (.writeCmd 0b000#3) [] [] := by decide

theorem witness_RxStartBeginsHunt :
    State.reset.rx.status.phase ≠ .busy ∧ (ofRx (rxIn .hunt)).rx.status.phase = .busy := by decide

theorem witness_RxAbortStopsDecode :
    (ofRx (rxIn .close)).rx.status.phase = .busy ∧ State.reset.rx.status.phase ≠ .busy := by decide

theorem getD_zeros (k i : Nat) : (List.replicate k 0x00#8).getD i 0 = 0x00#8 := by
  rw [List.getD_eq_getElem?_getD, List.getElem?_replicate]
  split <;> rfl

/-- The longest payload of an RPN or SNC body: 253 octets. -/
def raw253 : List Byte := List.replicate 253 0x00#8

/-- A TX engine that is not BUSY, with the longest frame as its descriptor. -/
def txLongest : TxEngine := { TxEngine.reset with desc := some (.uih 1 .command .final ⟨.command, .snc raw253⟩) }

theorem witness_TxStartLatchesFrame_shortest :
    (ofTx { TxEngine.reset with desc := some (.sabm 2 .poll) }).tx.status.phase ≠ .busy
      ∧ (ofTx { TxEngine.reset with desc := some (.sabm 2 .poll) }).tx.desc = some (.sabm 2 .poll)
      ∧ (Frame.sabm 2 .poll).wellFormed = true
      ∧ Memory.wf (ofTx { TxEngine.reset with desc := some (.sabm 2 .poll) }).tx.buf = true := by decide

theorem witness_TxStartLatchesFrame_longest :
    (ofTx txLongest).tx.status.phase ≠ .busy
      ∧ (ofTx txLongest).tx.desc = some (.uih 1 .command .final ⟨.command, .snc raw253⟩)
      ∧ (Frame.uih 1 .command .final ⟨.command, .snc raw253⟩).wellFormed = true
      ∧ Memory.wf (ofTx txLongest).tx.buf = true := by decide +kernel

theorem witness_TxStartRefusals :
    (ofTx (txIn 6 0)).tx.status.phase = .busy
      ∧ (State.reset.tx.status.phase ≠ .busy ∧ State.reset.tx.desc = none)
      ∧ ((ofTx { TxEngine.reset with desc := some (.uih 1 .command .final ⟨.command, .rpn []⟩) }).tx.status.phase ≠ .busy
        ∧ (ofTx { TxEngine.reset with desc := some (.uih 1 .command .final ⟨.command, .rpn []⟩) }).tx.desc
          = some (.uih 1 .command .final ⟨.command, .rpn []⟩)
        ∧ (Frame.uih 1 .command .final ⟨.command, .rpn []⟩).wellFormed = false) := by decide

theorem witness_TxAbortStopsEncode :
    (ofTx (txIn 6 0)).tx.status.phase = .busy ∧ State.reset.tx.status.phase ≠ .busy := by decide

theorem witness_SabmTakesLengthZero :
    (ofRx (rxIn .len1)).rx.len = 0 ∧ (ofRx { rxIn .len1 with len := 1 }).rx.len ≠ 0
      ∧ (ofRx { rxIn .len2 with len := 16383 }).rx.len ≠ 0 := by decide

theorem witness_UihTakesLengths1To254 :
    (1 ≤ (ofRx (rxField 1 [])).rx.len.toNat ∧ (ofRx (rxField 1 [])).rx.len.toNat ≤ 254)
      ∧ (1 ≤ (ofRx (rxField 254 [])).rx.len.toNat ∧ (ofRx (rxField 254 [])).rx.len.toNat ≤ 254)
      ∧ (ofRx (rxField 0 [])).rx.len.toNat = 0 ∧ 254 < (ofRx (rxField 255 [])).rx.len.toNat := by decide

theorem witness_OtherFrameTypesUnsupported :
    Instr.ui .poll ∈ [Instr.ua .poll, .dm .poll, .disc .poll, .ui .poll] := by decide

theorem witness_EmptyPayloadTypesRead :
    (Instr.fcOn .command, InfoBody.fcOn)
        ∈ [(Instr.pn .command, InfoBody.pn), (.cld .command, .cld), (.fcOff .command, .fcOff), (.fcOn .command, .fcOn)]
      ∧ (ofRx (rxField 1 [])).rx.len.toNat = 1
      ∧ (2 ≤ (ofRx (rxField 2 [])).rx.len.toNat ∧ (ofRx (rxField 2 [])).rx.len.toNat ≤ 254)
      ∧ (2 ≤ (ofRx (rxField 254 [])).rx.len.toNat ∧ (ofRx (rxField 254 [])).rx.len.toNat ≤ 254) := by decide

theorem witness_MscReadsControlAndBreak :
    (ofRx (rxField 3 [])).rx.len.toNat = 3 ∧ (ofRx (rxField 4 [])).rx.len.toNat = 4
      ∧ (1 ≤ (ofRx (rxField 1 [])).rx.len.toNat ∧ (ofRx (rxField 1 [])).rx.len.toNat ≤ 254 ∧ (ofRx (rxField 1 [])).rx.len.toNat ≠ 3 ∧ (ofRx (rxField 1 [])).rx.len.toNat ≠ 4)
      ∧ (1 ≤ (ofRx (rxField 2 [])).rx.len.toNat ∧ (ofRx (rxField 2 [])).rx.len.toNat ≤ 254 ∧ (ofRx (rxField 2 [])).rx.len.toNat ≠ 3 ∧ (ofRx (rxField 2 [])).rx.len.toNat ≠ 4)
      ∧ (1 ≤ (ofRx (rxField 5 [])).rx.len.toNat ∧ (ofRx (rxField 5 [])).rx.len.toNat ≤ 254 ∧ (ofRx (rxField 5 [])).rx.len.toNat ≠ 3 ∧ (ofRx (rxField 5 [])).rx.len.toNat ≠ 4)
      ∧ (1 ≤ (ofRx (rxField 254 [])).rx.len.toNat ∧ (ofRx (rxField 254 [])).rx.len.toNat ≤ 254 ∧ (ofRx (rxField 254 [])).rx.len.toNat ≠ 3 ∧ (ofRx (rxField 254 [])).rx.len.toNat ≠ 4) := by decide

theorem witness_NscReadsCommandType_named :
    (ofRx (rxField 2 [(1, 0xD3#8)])).params.wellFormed = true ∧ (ofRx (rxField 2 [(1, 0xD3#8)])).rx.len.toNat = 2
      ∧ infoTagOf (ofRx (rxField 2 [(1, 0xD3#8)])).params.infoTags .snc
        = memRead (ofRx (rxField 2 [(1, 0xD3#8)])).rx.buf 1 &&& 0xFC#8 := by decide

theorem witness_NscReadsCommandType_unnamed :
    (ofRx (rxField 2 [])).params.wellFormed = true ∧ (ofRx (rxField 2 [])).rx.len.toNat = 2
      ∧ ∀ ct, infoTagOf (ofRx (rxField 2 [])).params.infoTags ct ≠ memRead (ofRx (rxField 2 [])).rx.buf 1 &&& 0xFC#8 := 
  ⟨by decide, rfl, by intro ct; cases ct <;> decide⟩

theorem witness_NscReadsCommandType_shape :
    (ofRx (rxField 1 [])).params.wellFormed = true
      ∧ (1 ≤ (ofRx (rxField 1 [])).rx.len.toNat ∧ (ofRx (rxField 1 [])).rx.len.toNat ≤ 254 ∧ (ofRx (rxField 1 [])).rx.len.toNat ≠ 2)
      ∧ (1 ≤ (ofRx (rxField 3 [])).rx.len.toNat ∧ (ofRx (rxField 3 [])).rx.len.toNat ≤ 254 ∧ (ofRx (rxField 3 [])).rx.len.toNat ≠ 2)
      ∧ (1 ≤ (ofRx (rxField 254 [])).rx.len.toNat ∧ (ofRx (rxField 254 [])).rx.len.toNat ≤ 254 ∧ (ofRx (rxField 254 [])).rx.len.toNat ≠ 2) := by decide

theorem witness_RpnSncKeepOctets_shortest :
    (Instr.snc .command, InfoBody.snc) ∈ [(Instr.rpn .command, InfoBody.rpn), (.snc .command, .snc)]
      ∧ (2 ≤ (ofRx (rxField 2 [])).rx.len.toNat ∧ (ofRx (rxField 2 [])).rx.len.toNat ≤ 254)
      ∧ [0x00#8].length + 1 = (ofRx (rxField 2 [])).rx.len.toNat
      ∧ (∀ i, i < [0x00#8].length → [0x00#8].getD i 0 = memRead (ofRx (rxField 2 [])).rx.buf (1 + i))
      ∧ (ofRx (rxField 1 [])).rx.len.toNat = 1 := 
  ⟨List.mem_cons_of_mem _ (List.mem_cons_self ..), by decide, rfl, by decide, rfl⟩

theorem witness_RpnSncKeepOctets_longest :
    (2 ≤ (ofRx (rxField 254 [])).rx.len.toNat ∧ (ofRx (rxField 254 [])).rx.len.toNat ≤ 254)
      ∧ raw253.length + 1 = (ofRx (rxField 254 [])).rx.len.toNat
      ∧ (∀ i, i < raw253.length → raw253.getD i 0 = memRead (ofRx (rxField 254 [])).rx.buf (1 + i)) := 
  ⟨by decide, by decide +kernel, fun i _ => getD_zeros 253 i⟩

theorem witness_RlsReadsLineStatus :
    (ofRx (rxField 3 [])).rx.len.toNat = 3
      ∧ (1 ≤ (ofRx (rxField 1 [])).rx.len.toNat ∧ (ofRx (rxField 1 [])).rx.len.toNat ≤ 254 ∧ (ofRx (rxField 1 [])).rx.len.toNat ≠ 3)
      ∧ (1 ≤ (ofRx (rxField 2 [])).rx.len.toNat ∧ (ofRx (rxField 2 [])).rx.len.toNat ≤ 254 ∧ (ofRx (rxField 2 [])).rx.len.toNat ≠ 3)
      ∧ (1 ≤ (ofRx (rxField 4 [])).rx.len.toNat ∧ (ofRx (rxField 4 [])).rx.len.toNat ≤ 254 ∧ (ofRx (rxField 4 [])).rx.len.toNat ≠ 3)
      ∧ (1 ≤ (ofRx (rxField 254 [])).rx.len.toNat ∧ (ofRx (rxField 254 [])).rx.len.toNat ≤ 254 ∧ (ofRx (rxField 254 [])).rx.len.toNat ≠ 3) := by decide

theorem witness_PscTestUnsupported :
    Instr.test .command ∈ [Instr.psc .command, .test .command] := by decide

theorem witness_InfoLengthOutsideBufferFaults :
    (ofRx (rxField 0 [])).rx.len.toNat = 0 ∧ 254 < (ofRx (rxField 255 [])).rx.len.toNat
      ∧ Instr.snc .command ∈ [Instr.pn .command, .cld .command, .fcOn .command, .fcOff .command, .msc .command,
        .nsc .command, .rpn .command, .rls .command, .snc .command] := by decide

theorem witness_InfoReadAcceptsInfoWrite_msc :
    (ofRx (rxField 4 [(1, 0x0A#8), (2, 0x8D#8), (3, 0x01#8)])).params.wellFormed = true
      ∧ (InfoBody.msc 2 .command 0x8C#8 (some 0x00#8)).wellFormed = true
      ∧ (ofRx (rxField 4 [(1, 0x0A#8), (2, 0x8D#8), (3, 0x01#8)])).rx.len.toNat
        = 1 + wireLen (.msc 2 .command 0x8C#8 (some 0x00#8))
      ∧ memReadRange (ofRx (rxField 4 [(1, 0x0A#8), (2, 0x8D#8), (3, 0x01#8)])).rx.buf 1
          (wireLen (.msc 2 .command 0x8C#8 (some 0x00#8)))
        = infoWrite (ofRx (rxField 4 [(1, 0x0A#8), (2, 0x8D#8), (3, 0x01#8)])).params.infoTags
          (.msc 2 .command 0x8C#8 (some 0x00#8)) := by decide

theorem witness_InfoReadAcceptsInfoWrite_longest :
    (ofRx (rxField 254 [])).params.wellFormed = true ∧ (InfoBody.snc raw253).wellFormed = true
      ∧ (ofRx (rxField 254 [])).rx.len.toNat = 1 + wireLen (.snc raw253)
      ∧ memReadRange (ofRx (rxField 254 [])).rx.buf 1 (wireLen (.snc raw253))
        = infoWrite (ofRx (rxField 254 [])).params.infoTags (.snc raw253) := by decide +kernel

theorem witness_HuntFindsFlag :
    RxTakes (takeRx (rxIn .hunt) (.byte 0xF9#8)) .hunt (.byte 0xF9#8) [] []
      ∧ RxTakes (takeRx (rxIn .hunt) (.byte 0xF8#8)) .hunt (.byte 0xF8#8) [] [] ∧ 0xF8#8 ≠ 0xF9#8 := by decide

theorem witness_SourceEndOrFaultRaisesIo :
    RxTakes (takeRx (rxIn .hunt) .eof) .hunt .eof [] [] ∧ RxTakes (takeRx (rxIn .close) .eof) .close .eof [] []
      ∧ RxTakes (takeRx (rxIn .fcs) (.fault .brokenPipe)) .fcs (.fault .brokenPipe) [] [] := by decide

theorem witness_AddressOctetTaken :
    RxTakes (takeRx (rxIn .addr) (.byte 0xF9#8)) .addr (.byte 0xF9#8) [] [] := by decide

theorem witness_TypeOctetClassified :
    RxTakes (takeRx (rxIn .type) (.byte 0xFF#8)) .type (.byte 0xFF#8) [] []
      ∧ (0xFF#8 &&& 0xEF#8, FrameType.uih) ∈ [(0x2F#8, FrameType.sabm), (0x63#8, .ua), (0x0F#8, .dm), (0x43#8, .disc),
        (0xEF#8, .uih), (0x03#8, .ui)]
      ∧ RxTakes (takeRx (rxIn .type) (.byte 0x00#8)) .type (.byte 0x00#8) [] []
      ∧ 0x00#8 &&& 0xEF#8 ∉ [0x2F#8, 0x63#8, 0x0F#8, 0x43#8, 0xEF#8, 0x03#8] := by decide

theorem witness_LengthOctetsAssembled :
    (RxTakes (takeRx (rxIn .len1) (.byte 0xFF#8)) .len1 (.byte 0xFF#8) [] [] ∧ (0xFF#8).getLsbD 0 = true)
      ∧ (RxTakes (takeRx (rxIn .len1) (.byte 0xFE#8)) .len1 (.byte 0xFE#8) [] [] ∧ (0xFE#8).getLsbD 0 = false)
      ∧ RxTakes (takeRx (rxIn .len2) (.byte 0xFE#8)) .len2 (.byte 0xFE#8) [] [] := by decide

theorem witness_InfoOctetStoredThenDispatched_first :
    RxTakes (takeRx { rxField 2 [] with cnt := 0 } (.byte 0xF9#8)) .info (.byte 0xF9#8) [] []
      ∧ Memory.wf (takeRx { rxField 2 [] with cnt := 0 } (.byte 0xF9#8)).rx.buf = true
      ∧ (takeRx { rxField 2 [] with cnt := 0 } (.byte 0xF9#8)).params.wellFormed = true
      ∧ (takeRx { rxField 2 [] with cnt := 0 } (.byte 0xF9#8)).rx.cnt.toNat < 254
      ∧ (takeRx { rxField 2 [] with cnt := 0 } (.byte 0xF9#8)).rx.cnt.toNat + 1
        ≠ (takeRx { rxField 2 [] with cnt := 0 } (.byte 0xF9#8)).rx.len.toNat := by decide

theorem witness_InfoOctetStoredThenDispatched_lastButOne :
    RxTakes (takeRx { rxField 254 [] with cnt := 252 } (.byte 0xF9#8)) .info (.byte 0xF9#8) [] []
      ∧ Memory.wf (takeRx { rxField 254 [] with cnt := 252 } (.byte 0xF9#8)).rx.buf = true
      ∧ (takeRx { rxField 254 [] with cnt := 252 } (.byte 0xF9#8)).params.wellFormed = true
      ∧ (takeRx { rxField 254 [] with cnt := 252 } (.byte 0xF9#8)).rx.cnt.toNat < 254
      ∧ (takeRx { rxField 254 [] with cnt := 252 } (.byte 0xF9#8)).rx.cnt.toNat + 1
        ≠ (takeRx { rxField 254 [] with cnt := 252 } (.byte 0xF9#8)).rx.len.toNat := by decide

theorem witness_InfoOctetStoredThenDispatched_named :
    RxTakes (takeRx { rxField 1 [] with cnt := 0 } (.byte 0x82#8)) .info (.byte 0x82#8) [] []
      ∧ Memory.wf (takeRx { rxField 1 [] with cnt := 0 } (.byte 0x82#8)).rx.buf = true
      ∧ (takeRx { rxField 1 [] with cnt := 0 } (.byte 0x82#8)).params.wellFormed = true
      ∧ (takeRx { rxField 1 [] with cnt := 0 } (.byte 0x82#8)).rx.cnt.toNat < 254
      ∧ (takeRx { rxField 1 [] with cnt := 0 } (.byte 0x82#8)).rx.cnt.toNat + 1
        = (takeRx { rxField 1 [] with cnt := 0 } (.byte 0x82#8)).rx.len.toNat
      ∧ infoTagOf (takeRx { rxField 1 [] with cnt := 0 } (.byte 0x82#8)).params.infoTags .pn
        = memRead (memWrite (takeRx { rxField 1 [] with cnt := 0 } (.byte 0x82#8)).rx.buf 0 0x82#8) 0 &&& 0xFC#8 := by decide

theorem witness_InfoOctetStoredThenDispatched_unnamed :
    RxTakes (takeRx { rxField 254 [] with cnt := 253 } (.byte 0x00#8)) .info (.byte 0x00#8) [] []
      ∧ Memory.wf (takeRx { rxField 254 [] with cnt := 253 } (.byte 0x00#8)).rx.buf = true
      ∧ (takeRx { rxField 254 [] with cnt := 253 } (.byte 0x00#8)).params.wellFormed = true
      ∧ (takeRx { rxField 254 [] with cnt := 253 } (.byte 0x00#8)).rx.cnt.toNat < 254
      ∧ (takeRx { rxField 254 [] with cnt := 253 } (.byte 0x00#8)).rx.cnt.toNat + 1
        = (takeRx { rxField 254 [] with cnt := 253 } (.byte 0x00#8)).rx.len.toNat
      ∧ ∀ T, infoTagOf (takeRx { rxField 254 [] with cnt := 253 } (.byte 0x00#8)).params.infoTags T
        ≠ memRead (memWrite (takeRx { rxField 254 [] with cnt := 253 } (.byte 0x00#8)).rx.buf 253 0x00#8) 0 &&& 0xFC#8 := 
  ⟨by decide, by decide, by decide, by decide, by decide, by intro T; cases T <;> decide⟩

theorem witness_FcsOctetChecked :
    (RxTakes (takeRx { rxIn .fcs with crc := 0x47#8 } (.byte 0xB8#8)) .fcs (.byte 0xB8#8) [] []
        ∧ (0xB8#8).toNat + (takeRx { rxIn .fcs with crc := 0x47#8 } (.byte 0xB8#8)).rx.crc.toNat = 255)
      ∧ (RxTakes (takeRx { rxIn .fcs with crc := 0x47#8 } (.byte 0xF9#8)) .fcs (.byte 0xF9#8) [] []
        ∧ (0xF9#8).toNat + (takeRx { rxIn .fcs with crc := 0x47#8 } (.byte 0xF9#8)).rx.crc.toNat ≠ 255) := by decide

theorem witness_CloseOctetPublishesFrame :
    (RxTakes (takeRx (rxIn .close) (.byte 0xF9#8)) .close (.byte 0xF9#8) [] []
        ∧ (takeRx (rxIn .close) (.byte 0xF9#8)).rx.ftype = .sabm)
      ∧ (RxTakes (takeRx { rxIn .close with ftype := .uih } (.byte 0xF9#8)) .close (.byte 0xF9#8) [] []
        ∧ (takeRx { rxIn .close with ftype := .uih } (.byte 0xF9#8)).rx.ftype ≠ .sabm)
      ∧ RxTakes (takeRx (rxIn .close) (.byte 0x7E#8)) .close (.byte 0x7E#8) [] [] ∧ 0x7E#8 ≠ 0xF9#8 := by decide

theorem witness_EnginesWaitOrAreIdle :
    (takeRx RxEngine.reset .eof).schedule = .rx :: [] ∧ (takeRx RxEngine.reset .eof).rx.status.phase ≠ .busy
      ∧ ({ ofRx (rxIn .info) with schedule := [.rx] } : State).source = []
      ∧ (takeTx TxEngine.reset .ok).schedule = .tx :: [] ∧ (takeTx TxEngine.reset .ok).tx.status.phase ≠ .busy
      ∧ ({ ofTx (txIn 6 0) with schedule := [.tx] } : State).sinkAnswers = [] := by decide

theorem witness_EmitStepFollowsAnswer :
    (TxTakes (takeTx (txIn 261 259) .ok) .ok [] [] ∧ (takeTx (txIn 261 259) .ok).tx.idx.toNat < 261
        ∧ (takeTx (txIn 261 259) .ok).tx.idx.toNat + 1 ≠ (takeTx (txIn 261 259) .ok).tx.len.toNat)
      ∧ (TxTakes (takeTx (txIn 261 260) .ok) .ok [] [] ∧ (takeTx (txIn 261 260) .ok).tx.idx.toNat < 261
        ∧ (takeTx (txIn 261 260) .ok).tx.idx.toNat + 1 = (takeTx (txIn 261 260) .ok).tx.len.toNat)
      ∧ TxTakes (takeTx (txIn 6 0) (.fault .brokenPipe)) (.fault .brokenPipe) [] []
      ∧ (({ ofTx (txIn 6 0) with schedule := [.tx] } : State).schedule = .tx :: []
        ∧ (ofTx (txIn 6 0)).tx.status.phase = .busy ∧ (ofTx (txIn 6 0)).tx.idx.toNat < (ofTx (txIn 6 0)).tx.len.toNat
        ∧ ({ ofTx (txIn 6 0) with schedule := [.tx] } : State).sinkAnswers = []) := by decide

theorem witness_MeaninglessHostActionsRefused :
    ∀ a ∈ [HostAction.writeCmd 0b011#3, .writeCmd 0b100#3, .writeCmd 0b111#3, .writeRxStatus, .writeRxResult,
      .writeTxStatus, .readCmd], HostActs (actHost State.reset a) a [] [] := by decide

theorem witness_StatusReadShowsFields :
    HostActs (actHost (ofRx { RxEngine.reset with status := ⟨.error, 1, .brokenPipe⟩ }) .readRxStatus) .readRxStatus [] []
      ∧ (ofRx { RxEngine.reset with status := ⟨.error, 1, .brokenPipe⟩ }).rx.status.err = 1
      ∧ HostActs (actHost State.reset .readTxStatus) .readTxStatus [] []
      ∧ State.reset.tx.status.err ≠ 1 := by decide

theorem witness_ResultReadOnlyWhenDone :
    HostActs (actHost (ofRx { RxEngine.reset with status := ⟨.done, 0, .brokenPipe⟩, result := some (.sabm 2 .poll) })
        .readRxResult) .readRxResult [] []
      ∧ (ofRx { RxEngine.reset with status := ⟨.done, 0, .brokenPipe⟩, result := some (.sabm 2 .poll) }).rx.status.phase = .done
      ∧ (ofRx { RxEngine.reset with status := ⟨.done, 0, .brokenPipe⟩, result := some (.sabm 2 .poll) }).rx.result
        = some (.sabm 2 .poll)
      ∧ HostActs (actHost State.reset .readRxResult) .readRxResult [] [] ∧ State.reset.rx.status.phase ≠ .done := by decide

theorem witness_DescriptorWriteAndRead :
    HostActs (actHost (ofTx (txIn 6 3)) (.writeTxDesc (.sabm 2 .poll))) (.writeTxDesc (.sabm 2 .poll)) [] []
      ∧ HostActs (actHost (ofTx { TxEngine.reset with desc := some (.sabm 2 .poll) }) .readTxDesc) .readTxDesc [] []
      ∧ (ofTx { TxEngine.reset with desc := some (.sabm 2 .poll) }).tx.desc = some (.sabm 2 .poll) := by decide

theorem witness_RaiseEntersError :
    (CmuxError.invalidInformationField, (5 : BitVec 3)) ∈ [(CmuxError.crcMismatch, (2 : BitVec 3)),
      (.invalidFrameFormat, 3), (.unsupportedOperation, 4), (.invalidInformationField, 5)] := by decide

theorem witness_OnlyHostActionsAreRefused :
    step (actHost (ofRx (rxIn .hunt)) (.writeCmd 0b001#3)) = .refused .hostProtocol
      ∧ step (actHost State.reset .readRxResult) = .refused .resultNotValid
      ∧ step (actHost State.reset (.writeCmd 0b101#3)) = .refused .badDescriptor := ⟨rfl, rfl, rfl⟩

theorem witness_StepRunsDecodedInstruction_cmd :
    HostActs (actHost State.reset (.writeCmd 0b001#3)) (.writeCmd 0b001#3) [] []
      ∧ decode (actHost State.reset (.writeCmd 0b001#3)).params.infoTags .cmd ((0b001#3).setWidth 8) = .ok .rxStart := 
  ⟨by decide, rfl⟩

theorem witness_StepRunsDecodedInstruction_len1 :
    RxTakes (takeRx { rxIn .len1 with typ := 0x3F#8 } (.byte 0x01#8)) .len1 (.byte 0x01#8) [] []
      ∧ (0x01#8).getLsbD 0 = true ∧ rxTypeKnown (takeRx { rxIn .len1 with typ := 0x3F#8 } (.byte 0x01#8)).rx = true
      ∧ decode (takeRx { rxIn .len1 with typ := 0x3F#8 } (.byte 0x01#8)).params.infoTags .frameType
          (takeRx { rxIn .len1 with typ := 0x3F#8 } (.byte 0x01#8)).rx.typ = .ok (.sabm .poll) := 
  ⟨by decide, by decide, by decide, rfl⟩

theorem witness_StepRunsDecodedInstruction_len2 :
    RxTakes (takeRx { rxIn .len2 with typ := 0x3F#8 } (.byte 0x00#8)) .len2 (.byte 0x00#8) [] []
      ∧ rxTypeKnown (takeRx { rxIn .len2 with typ := 0x3F#8 } (.byte 0x00#8)).rx = true
      ∧ decode (takeRx { rxIn .len2 with typ := 0x3F#8 } (.byte 0x00#8)).params.infoTags .frameType
          (takeRx { rxIn .len2 with typ := 0x3F#8 } (.byte 0x00#8)).rx.typ = .ok (.sabm .poll) := 
  ⟨by decide, by decide, rfl⟩

theorem witness_StepRunsDecodedInstruction_info :
    RxTakes (takeRx { rxField 254 [(0, 0xD2#8)] with cnt := 253 } (.byte 0x01#8)) .info (.byte 0x01#8) [] []
      ∧ (takeRx { rxField 254 [(0, 0xD2#8)] with cnt := 253 } (.byte 0x01#8)).rx.cnt.toNat < 254
      ∧ (takeRx { rxField 254 [(0, 0xD2#8)] with cnt := 253 } (.byte 0x01#8)).rx.cnt.toNat + 1
        = (takeRx { rxField 254 [(0, 0xD2#8)] with cnt := 253 } (.byte 0x01#8)).rx.len.toNat
      ∧ decode (takeRx { rxField 254 [(0, 0xD2#8)] with cnt := 253 } (.byte 0x01#8)).params.infoTags .infoTag
          (memRead (memWrite (takeRx { rxField 254 [(0, 0xD2#8)] with cnt := 253 } (.byte 0x01#8)).rx.buf 253 0x01#8) 0) = .ok (.snc .command) := 
  ⟨by decide, by decide, by decide, rfl⟩

/-- A sound state with both engines in the middle of a transaction, RX about to take the last octet of the longest
information field. -/
def midway : State :=
  { takeRx { rxField 254 [(0, 0xD2#8)] with cnt := 253 } (.byte 0x01#8) with tx := txIn 261 260, sinkAnswers := [.ok] }

theorem witness_EveryStepKeepsInvariant :
    midway.Inv ∧ after (step midway) (fun s => s.rx.cnt) = some 254 := by decide +kernel

theorem witness_SoundStateNeverFaults :
    midway.Inv := by decide

theorem witness_EnginesAreIsolated :
    (after (step midway) (fun _ => ()) = some () ∧ midway.schedule = .rx :: [])
      ∧ (after (step { midway with schedule := [.tx] }) (fun _ => ()) = some ()
        ∧ ({ midway with schedule := [.tx] } : State).schedule = .tx :: []) := by decide +kernel

/-- A state with both engines DONE, in which the host does `a`. -/
def doneHost (a : HostAction) : State :=
  actHost { State.reset with
    rx := { RxEngine.reset with status := ⟨.done, 0, .brokenPipe⟩, result := some (.sabm 2 .poll) }
    tx := { TxEngine.reset with status := ⟨.done, 0, .brokenPipe⟩ } } a

theorem witness_ResultsStayUntilStartOrReset :
    after (step (doneHost .readRxResult)) (fun _ => ()) = some () ∧ (∀ sch, (doneHost .readRxResult).schedule ≠ .reset :: sch)
      ∧ (doneHost .readRxResult).rx.status.phase ≠ .busy ∧ (∀ acts sch, ¬ HostActs (doneHost .readRxResult) (.writeCmd 0b001#3) acts sch)
      ∧ (doneHost .readRxResult).tx.status.phase ≠ .busy ∧ (∀ acts sch, ¬ HostActs (doneHost .readRxResult) (.writeCmd 0b101#3) acts sch) := by
  refine ⟨by decide, fun sch => by simp [doneHost, actHost], by decide, fun acts sch => ?_, by decide, fun acts sch => ?_⟩ <;>
  simp [doneHost, actHost]

theorem witness_ResultsStayUntilStartOrReset_abort :
    after (step (doneHost (.writeCmd 0b010#3))) (fun t => t.rx.result) = some (some (.sabm 2 .poll))
      ∧ after (step (doneHost (.writeCmd 0b110#3))) (fun t => t.tx.status.phase) = some .done
      ∧ ∀ c ∈ [0b010#3, 0b110#3],
        (∀ sch, (doneHost (.writeCmd c)).schedule ≠ .reset :: sch)
          ∧ (doneHost (.writeCmd c)).rx.status.phase ≠ .busy ∧ (doneHost (.writeCmd c)).tx.status.phase ≠ .busy
          ∧ (∀ acts sch, ¬ HostActs (doneHost (.writeCmd c)) (.writeCmd 0b001#3) acts sch)
          ∧ ∀ acts sch, ¬ HostActs (doneHost (.writeCmd c)) (.writeCmd 0b101#3) acts sch := by
  refine ⟨by decide, by decide, ?_⟩
  simp [doneHost, actHost]

theorem witness_PhaseChangesOnlyByItsEvents :
    after (step (takeRx (rxIn .close) (.byte 0xF9#8))) (fun s => s.rx.status.phase) = some .done
      ∧ (takeRx (rxIn .close) (.byte 0xF9#8)).rx.status.phase = .busy
      ∧ after (step (takeTx (txIn 6 5) .ok)) (fun s => s.tx.status.phase) = some .done
      ∧ (takeTx (txIn 6 5) .ok).tx.status.phase = .busy := by decide

theorem witness_StreamsMoveOneEventPerStep :
    after (step midway) (fun s => s.source) = some []
      ∧ after (step { midway with schedule := [.tx] }) (fun s => s.sinkOctets.length) = some 1 := by decide +kernel

/-- A legal INFO_TAG other than the default: two of its values exchanged. -/
def otherTags : InfoTags := { defaultInfoTags with pn := 0x40#8, psc := 0x80#8 }

theorem witness_DecodeInvertsEncode :
    defaultInfoTags.wellFormed = true ∧ otherTags.wellFormed = true := by decide

theorem witness_EncodeInvertsDecode :
    otherTags.wellFormed = true ∧ decode otherTags .cmd 0b110#8 = .ok .txAbort
      ∧ decode otherTags .frameType 0x13#8 = .ok (.ui .poll) ∧ decode otherTags .infoTag 0x43#8 = .ok (.pn .command) := 
  ⟨by decide, rfl, rfl, rfl⟩

theorem witness_InfoTagSelectsItsType :
    otherTags.wellFormed = true := by decide

theorem witness_CrcTableIsBijection :
    crcUpdate 0x00#8 0xFF#8 = crcUpdate 0x00#8 0xFF#8 := rfl

theorem witness_SingleBitFlipChangesFcs :
    0 < [0x07#8, 0xEF#8, 0x03#8, 0x82#8].length ∧ 3 < [0x07#8, 0xEF#8, 0x03#8, 0x82#8].length ∧ 7 < 8 := by decide

theorem witness_EaReadInvertsEaWrite :
    (0 < 2 ^ 28 ∧ 0 ≤ 127) ∧ (127 < 2 ^ 28 ∧ 127 ≤ 127) ∧ (128 < 2 ^ 28 ∧ 128 ≤ 128 ∧ 128 ≤ 16383)
      ∧ (16383 < 2 ^ 28 ∧ 128 ≤ 16383 ∧ 16383 ≤ 16383) ∧ 268435455 < 2 ^ 28 := by decide

theorem witness_EaCodecRefusals :
    2 ^ 28 ≤ 268435456 ∧ (0x00#8).getLsbD 0 = false ∧ (0xFE#8).getLsbD 0 = false := by decide

theorem witness_SabmFrameOctets :
    (0xFF#8 : Byte) = BitVec.ofNat 8 ((63#6).toNat * 4 + 3) ∧ (0x2F#8 : Byte) = (if PollFinal.final = .poll then 0x3F#8 else 0x2F#8)
      ∧ (0x0B#8 : Byte) = BitVec.ofNat 8 ((2#6).toNat * 4 + 3) ∧ (0x3F#8 : Byte) = (if PollFinal.poll = .poll then 0x3F#8 else 0x2F#8) := by decide

theorem witness_UihFrameOctets_oneLen :
    (Frame.uih 1 .command .final ⟨.command, .snc (List.replicate 126 0x00#8)⟩).wellFormed = true
      ∧ 127 = 1 + (infoWrite defaultInfoTags (.snc (List.replicate 126 0x00#8))).length
      ∧ (0x07#8 : Byte) = BitVec.ofNat 8 ((1#6).toNat * 4 + (if CommandResponse.command = .command then 2 else 0) + 1)
      ∧ (0xEF#8 : Byte) = (if PollFinal.final = .poll then 0xFF#8 else 0xEF#8)
      ∧ (0xD2#8 : Byte) = infoTagOf defaultInfoTags (informationType (.snc (List.replicate 126 0x00#8)))
        ||| (if CommandResponse.command = .command then 0x02#8 else 0x00#8)
      ∧ ([0xFF#8] : List Byte) = (if 127 ≤ 127 then [BitVec.ofNat 8 (127 * 2 + 1)]
        else [BitVec.ofNat 8 (127 / 128 * 2), BitVec.ofNat 8 (127 % 128 * 2 + 1)]) := by decide +kernel

theorem witness_UihFrameOctets_twoLen :
    (Frame.uih 1 .command .final ⟨.command, .snc (List.replicate 127 0x00#8)⟩).wellFormed = true
      ∧ 128 = 1 + (infoWrite defaultInfoTags (.snc (List.replicate 127 0x00#8))).length
      ∧ (0x07#8 : Byte) = BitVec.ofNat 8 ((1#6).toNat * 4 + (if CommandResponse.command = .command then 2 else 0) + 1)
      ∧ (0xEF#8 : Byte) = (if PollFinal.final = .poll then 0xFF#8 else 0xEF#8)
      ∧ (0xD2#8 : Byte) = infoTagOf defaultInfoTags (informationType (.snc (List.replicate 127 0x00#8)))
        ||| (if CommandResponse.command = .command then 0x02#8 else 0x00#8)
      ∧ ([0x02#8, 0x01#8] : List Byte) = (if 128 ≤ 127 then [BitVec.ofNat 8 (128 * 2 + 1)]
        else [BitVec.ofNat 8 (128 / 128 * 2), BitVec.ofNat 8 (128 % 128 * 2 + 1)]) := by decide +kernel

theorem witness_UihFrameOctets_longest :
    (Frame.uih 1 .command .final ⟨.command, .snc (List.replicate 253 0x00#8)⟩).wellFormed = true
      ∧ 254 = 1 + (infoWrite defaultInfoTags (.snc (List.replicate 253 0x00#8))).length
      ∧ (0x07#8 : Byte) = BitVec.ofNat 8 ((1#6).toNat * 4 + (if CommandResponse.command = .command then 2 else 0) + 1)
      ∧ (0xEF#8 : Byte) = (if PollFinal.final = .poll then 0xFF#8 else 0xEF#8)
      ∧ (0xD2#8 : Byte) = infoTagOf defaultInfoTags (informationType (.snc (List.replicate 253 0x00#8)))
        ||| (if CommandResponse.command = .command then 0x02#8 else 0x00#8)
      ∧ ([0x02#8, 0xFD#8] : List Byte) = (if 254 ≤ 127 then [BitVec.ofNat 8 (254 * 2 + 1)]
        else [BitVec.ofNat 8 (254 / 128 * 2), BitVec.ofNat 8 (254 % 128 * 2 + 1)]) := by decide +kernel

theorem witness_InfoWriteOctets :
    (0x02#8 : Byte) = (if CommandResponse.command = .command then 0x02#8 else 0x00#8)
      ∧ (0xFE#8 : Byte) = BitVec.ofNat 8 ((63#6).toNat * 4) ||| 0x02#8 := by decide

/-- The RX engine hunts over the six octets of a SABM frame (E1), then the source ends. -/
def huntSabm : State :=
  { ofRx (rxIn .hunt) with
    source := srcOctets [0xF9#8, 0x0B#8, 0x3F#8, 0x01#8, 0x59#8, 0xF9#8] ++ [.eof], schedule := List.replicate 6 .rx ++ [.host] }

theorem witness_DecodeOfEncodedFrame :
    huntSabm.params.wellFormed = true ∧ (Frame.sabm 2 .poll).wellFormed = true
      ∧ build huntSabm.params.infoTags (.sabm 2 .poll) = .ok [0xF9#8, 0x0B#8, 0x3F#8, 0x01#8, 0x59#8, 0xF9#8]
      ∧ huntSabm.rx.status.phase = .busy ∧ huntSabm.rx.state = .hunt ∧ Memory.wf huntSabm.rx.buf = true
      ∧ huntSabm.source = srcOctets [0xF9#8, 0x0B#8, 0x3F#8, 0x01#8, 0x59#8, 0xF9#8] ++ [.eof]
      ∧ huntSabm.schedule = List.replicate [0xF9#8, 0x0B#8, 0x3F#8, 0x01#8, 0x59#8, 0xF9#8].length .rx ++ [.host] := by decide +kernel

/-- The host is about to start the SABM frame E1, and the sink accepts six octets. -/
def startSabm : State :=
  { ofTx { TxEngine.reset with desc := some (.sabm 2 .poll) } with
    host := ⟨[.writeCmd 0b101#3], none⟩
    sinkAnswers := List.replicate 6 .ok ++ [.fault .brokenPipe]
    schedule := .host :: (List.replicate 6 .tx ++ [.rx]) }

theorem witness_StartedFrameIsEmittedWhole :
    startSabm.tx.status.phase ≠ .busy ∧ startSabm.tx.desc = some (.sabm 2 .poll) ∧ (Frame.sabm 2 .poll).wellFormed = true
      ∧ Memory.wf startSabm.tx.buf = true
      ∧ build startSabm.params.infoTags (.sabm 2 .poll) = .ok [0xF9#8, 0x0B#8, 0x3F#8, 0x01#8, 0x59#8, 0xF9#8]
      ∧ startSabm.host.pending = .writeCmd 0b101#3 :: []
      ∧ startSabm.sinkAnswers
        = List.replicate [0xF9#8, 0x0B#8, 0x3F#8, 0x01#8, 0x59#8, 0xF9#8].length .ok ++ [.fault .brokenPipe]
      ∧ startSabm.schedule
        = .host :: (List.replicate [0xF9#8, 0x0B#8, 0x3F#8, 0x01#8, 0x59#8, 0xF9#8].length .tx ++ [.rx]) := by decide +kernel

/-- The RX engine hunts over one octet of noise and a flag, then the source answers 260 times. -/
def huntNoise : State :=
  { ofRx (rxIn .hunt) with
    source := srcOctets ([0x7E#8] ++ [0xF9#8]) ++ List.replicate 260 (.byte 0x01#8)
    schedule := List.replicate (1 + 1 + 260) .rx ++ [] }

theorem witness_RxTransactionEnds :
    huntNoise.Inv ∧ huntNoise.rx.status.phase = .busy ∧ huntNoise.rx.state = .hunt ∧ 0xF9#8 ∉ [0x7E#8]
      ∧ 260 ≤ (List.replicate 260 (SrcEvent.byte 0x01#8)).length
      ∧ huntNoise.source = srcOctets ([0x7E#8] ++ [0xF9#8]) ++ List.replicate 260 (.byte 0x01#8)
      ∧ huntNoise.schedule = List.replicate ([0x7E#8].length + 1 + 260) .rx ++ [] := by decide +kernel

/-- The longest frame is about to be emitted, and the sink answers 261 times. -/
def emitLongest : State :=
  { ofTx (txIn 261 0) with sinkAnswers := List.replicate 261 .ok, schedule := List.replicate 261 .tx ++ [] }

theorem witness_TxTransactionEnds :
    emitLongest.Inv ∧ emitLongest.tx.status.phase = .busy ∧ 261 ≤ emitLongest.sinkAnswers.length
      ∧ emitLongest.schedule = List.replicate 261 .tx ++ [] := by decide +kernel

theorem witness_ControlFieldsReadAndWrite :
    6 + 1 ≤ 7 ∧ (4 ≤ 5 ∧ 5 < 4 + 2) ∧ ¬ (4 ≤ 6 ∧ 6 < 4 + 2) ∧ 7 < 8 := by decide

end Sys2Proof.Tests
end

/-! PROOFS. The state's family: what a step can do to each engine, said once (`RxChange`, `TxChange`), and from it the
invariant, the results that stay and the table of PHASE changes; then the host's reads and writes of the registers. -/

namespace Sys2Proof.Machine

/-! ### One step of the machine -/

/-- R84: a step that answers a next state leaves the state as it is, with no agent scheduled, or is a step of the next
agent. -/
theorem step_next_cases {s t : State} (h : step s = .next t) :
    t = s ∨ ∃ a sch, s.schedule = a :: sch ∧ agentStep a (withSchedule s sch) = .next t := by
  unfold step at h
  split at h
  · exact .inl (Host.Outcome.next.inj h).symm
  · exact .inr ⟨_, _, ‹_›, h⟩

/-- R7: a host step that answers a next state leaves the state as it is, with no action left, or is the next action. -/
theorem hostStep_next_cases {s t : State} (h : hostStep s = .next t) :
    t = s ∨ ∃ a acts, s.host.pending = a :: acts ∧ HostOutcome a (withPending s acts) (.next t) := by
  unfold hostStep at h
  split at h
  · exact .inl (Host.Outcome.next.inj h).symm
  · exact .inr ⟨_, _, ‹_›, h ▸ hostAct_outcome _ _⟩

/-- R32 to R36: the step in which the host does `a`. -/
theorem step_of_hostActs {s : State} {a : HostAction} {acts : List HostAction} {sch : List Agent}
    (h : HostActs s a acts sch) : step s = hostAct a (hostTaken s acts sch) := by
  obtain ⟨hsch, hacts⟩ := h
  simp only [step, hsch, agentStep, hostStep, withSchedule_host, hacts]
  rfl

/-! ### The positions of a running decode -/

/-- The form and the bounds of `rx_buf` (R42, R73). -/
def RxBufSound (m : Memory) : Prop := Memory.wf m = true ∧ Memory.within 254 m = true

/-- R164, R165: the position of a decode past its information field. -/
theorem rxProgress_tail {r : RxEngine} (h : r.state = .fcs ∨ r.state = .close) : rxProgress r = true ↔
    rxTypeKnown r = true ∧ (r.ftype = .sabm ∨ r.ftype = .uih ∧ r.info.body.wellFormed = true) := by
  rcases h with h | h <;> simp [rxProgress, h]

/-- R166, R167: the frame of a sound decode past its information field is valid. -/
theorem rxFrame_wellFormed {r : RxEngine} (h : r.ftype = .sabm ∨ r.ftype = .uih ∧ r.info.body.wellFormed = true) :
    (rxFrame r).wellFormed = true := by
  rcases h with h | ⟨h, hbody⟩
  · simp [rxFrame, h, rxSabmFrame, Frame.wellFormed]
  · simpa [rxFrame, h, rxUihFrame, Frame.wellFormed] using hbody

/-- R60, R231: what a read rule accepts of at most 253 payload octets is a valid body. -/
theorem ruleOf_wellFormed {tags : InfoTags} {T : InfoType} {rule : List Byte → Except CmuxError InfoBody}
    {P : List Byte} {body : InfoBody} (hrule : ruleOf tags T = some rule) (hP : P.length ≤ 253)
    (h : rule P = .ok body) : body.wellFormed = true := by
  cases T <;> cases hrule
  case pn | cld | fcOn | fcOff =>
    simp only [readPn, readCld, readFcOn, readFcOff] at h
    split at h <;> cases h
    rfl
  case msc | rls =>
    simp only [readMsc, readRls] at h
    split at h <;> cases h <;> rfl
  case nsc =>
    simp only [readNsc] at h
    split at h
    · split at h <;> cases h
      rfl
    · cases h
  case rpn | snc =>
    simp only [readRpn, readSnc] at h
    split at h <;> cases h
    exact decide_eq_true ⟨Nat.le_of_not_lt ‹_›, hP⟩

/-! ### What a source event does to the RX engine -/

/-- What a source event makes of the RX engine `r`, and what stays sound of it when `P` held before. -/
inductive RxMove (P : Prop) (r : RxEngine) : RxEngine → Prop where
  /-- The transaction goes on: status and result stay. -/
  | goesOn {r' : RxEngine} (hstatus : r'.status = r.status) (hresult : r'.result = r.result)
      (hsound : P → rxProgress r' = true ∧ RxBufSound r'.buf) : RxMove P r r'
  /-- The transaction raises `e` (R331). -/
  | raised {r' : RxEngine} (e : CmuxError) (hstatus : r'.status = statusRaise e r.status) (hresult : r'.result = none)
      (hsound : P → RxBufSound r'.buf) : RxMove P r r'
  /-- The transaction completes with `f` (R168). -/
  | completed {r' : RxEngine} (f : Frame) (hstatus : r'.status = statusComplete r.status) (hresult : r'.result = some f)
      (hsound : P → f.wellFormed = true ∧ RxBufSound r'.buf) : RxMove P r r'

/-- Every next state that `o` can be has its RX engine from `s` by an `RxMove`. -/
def RxMoves (P : Prop) (s : State) (o : Result) : Prop := ∀ t, o = .next t → RxMove P s.rx t.rx

theorem rxMoves_next {P : Prop} {s t : State} (h : RxMove P s.rx t.rx) : RxMoves P s (.next t) := by
  rintro _ ⟨⟩
  exact h

theorem rxMoves_fault (P : Prop) (s : State) (f : Fault) : RxMoves P s (.fault f) := by
  rintro _ ⟨⟩

/-- R331: an error. -/
theorem rxMoves_raise {P : Prop} {s : State} (e : CmuxError) (h : P → RxBufSound s.rx.buf) :
    RxMoves P s (.next (raise .rx e s)) := rxMoves_next (.raised e rfl rfl h)

/-- A move from a state whose RX engine differs from that of `s` in working registers only, and meets `P` where `s`
meets `Q`, is a move from `s`. -/
theorem RxMoves.of_withRx {P Q : Prop} {s : State} {r : RxEngine} {o : Result} (h : RxMoves P (withRx s r) o)
    (hstatus : r.status = s.rx.status) (hresult : r.result = s.rx.result) (hPQ : Q → P) : RxMoves Q s o := by
  intro t ht
  cases h t ht with
  | goesOn hst hres hs => exact .goesOn (hst.trans hstatus) (hres.trans hresult) (hs ∘ hPQ)
  | raised e hst hres hs => exact .raised e (hst.trans (congrArg _ hstatus)) hres (hs ∘ hPQ)
  | completed f hst hres hs => exact .completed f (hst.trans (congrArg _ hstatus)) hres (hs ∘ hPQ)

/-- R159 to R161: the frame type's instruction on the complete length. -/
theorem rxRunFrameType_moves (s : State) :
    RxMoves (rxTypeKnown s.rx = true ∧ RxBufSound s.rx.buf) s (rxRunFrameType s) := by
  unfold rxRunFrameType
  cases hft : s.rx.ftype with
  | sabm =>
    simp only [frameInstr, exec, execSabm]
    split
    · exact rxMoves_raise _ And.right
    · exact rxMoves_next (.goesOn rfl rfl fun ⟨hk, hb⟩ => ⟨(rxProgress_tail (.inl rfl)).2 ⟨hk, .inl hft⟩, hb⟩)
  | uih =>
    simp only [frameInstr, exec, execUih]
    split
    · exact rxMoves_raise _ And.right
    · rename_i hle
      split
      · exact rxMoves_raise _ And.right
      · rename_i h0
        have hpos : 0 < s.rx.len.toNat := Nat.pos_of_ne_zero fun h => h0 (BitVec.eq_of_toNat_eq h)
        exact rxMoves_next (.goesOn rfl rfl fun ⟨hk, hb⟩ =>
          ⟨(rxProgress_info rfl).2 ⟨hk, hft, Nat.le_of_not_gt hle, hpos⟩, hb⟩)
  | ua => exact rxMoves_raise _ And.right
  | dm => exact rxMoves_raise _ And.right
  | disc => exact rxMoves_raise _ And.right
  | ui => exact rxMoves_raise _ And.right

/-- R230: a read rule of an information type on the field in `rx_buf`. -/
theorem readInfo_moves {s : State} {T : InfoType} {rule : List Byte → Except CmuxError InfoBody}
    (hrule : ruleOf s.params.infoTags T = some rule) (cr : CommandResponse) :
    RxMoves (rxTypeKnown s.rx = true ∧ s.rx.ftype = .uih ∧ RxBufSound s.rx.buf) s (readInfo cr rule s) := by
  by_cases hlen : 1 ≤ s.rx.len.toNat ∧ s.rx.len.toNat ≤ 254
  · rw [readInfo_of_payload (rxPayload_some hlen)]
    generalize hP : memReadRange s.rx.buf 1 (s.rx.len.toNat - 1) = P
    have hPlen : P.length ≤ 253 := by
      rw [← hP, memReadRange_length]
      omega
    cases hread : rule P with
    | error e => exact rxMoves_raise e fun ⟨_, _, hb⟩ => hb
    | ok body =>
      exact rxMoves_next (.goesOn rfl rfl fun ⟨hk, hu, hb⟩ =>
        ⟨(rxProgress_tail (.inl rfl)).2 ⟨hk, .inr ⟨hu, ruleOf_wellFormed hrule hPlen hread⟩⟩, hb⟩)
  · rw [readInfo_of_no_payload (rxPayload_none hlen)]
    exact rxMoves_fault _ _ _

/-- R163, R230: the complete information field. -/
theorem rxRunInfoType_moves (s : State) :
    RxMoves (rxTypeKnown s.rx = true ∧ s.rx.ftype = .uih ∧ RxBufSound s.rx.buf) s (rxRunInfoType s) := by
  unfold rxRunInfoType
  split
  · exact rxMoves_raise _ fun ⟨_, _, hb⟩ => hb
  · rename_i i h
    obtain ⟨T, -, rfl⟩ := decodeInfoTag_ok h
    rw [exec_infoInstr]
    split
    · exact readInfo_moves ‹_› _
    · exact rxMoves_raise _ fun ⟨_, _, hb⟩ => hb

/-- R162: INFO on an octet: it is stored inside `rx_buf`, and the field goes on or is complete. -/
theorem rxInfoOctet_moves {s : State} (hq : s.rx.state = .info) (b : Byte) :
    RxMoves (rxProgress s.rx = true ∧ RxBufSound s.rx.buf) s (rxInfoOctet b s) := by
  by_cases hcnt : s.rx.cnt.toNat < 254
  · rw [rxInfoOctet_fits hcnt]
    have hbuf : RxBufSound s.rx.buf → RxBufSound (memWrite s.rx.buf s.rx.cnt.toNat b) := fun ⟨hwf, hin⟩ =>
      ⟨memWrite_wf hwf _ b, memWrite_within hin hcnt b⟩
    by_cases hend : (rxStoreInfo b s).rx.cnt.toNat = (rxStoreInfo b s).rx.len.toNat
    · rw [rxCheckInfoEnd_of_eq hend]
      refine (rxRunInfoType_moves (rxStoreInfo b s)).of_withRx rfl rfl fun ⟨hp, hb⟩ => ?_
      obtain ⟨hk, hu, -, -⟩ := (rxProgress_info hq).1 hp
      exact ⟨hk, hu, hbuf hb⟩
    · rw [rxCheckInfoEnd_of_ne hend]
      refine rxMoves_next (.goesOn rfl rfl fun ⟨hp, hb⟩ => ⟨?_, hbuf hb⟩)
      obtain ⟨hk, hu, hle, hlt⟩ := (rxProgress_info hq).1 hp
      have hsucc : (rxStoreInfo b s).rx.cnt.toNat = s.rx.cnt.toNat + 1 := cnt_succ hcnt
      have hlen : (rxStoreInfo b s).rx.len.toNat = s.rx.len.toNat := rfl
      exact (rxProgress_info rfl).2 ⟨hk, hu, hle, show (rxStoreInfo b s).rx.cnt.toNat < s.rx.len.toNat by omega⟩
  · have hfault : rxInfoOctet b s = .fault .rxBufIndex := if_neg hcnt
    rw [hfault]
    exact rxMoves_fault _ _ _

/-- R152 to R168: an octet in each `rx_state`. -/
theorem rxOctet_moves (b : Byte) (s : State) :
    RxMoves (rxProgress s.rx = true ∧ RxBufSound s.rx.buf) s (rxOctet b s) := by
  cases hq : s.rx.state <;> simp only [rxOctet, hq]
  case hunt =>
    simp only [rxHuntOctet]
    split
    · exact rxMoves_next (.goesOn rfl rfl fun ⟨_, hb⟩ => ⟨rfl, hb⟩)
    · exact rxMoves_next (.goesOn rfl rfl fun ⟨_, hb⟩ => ⟨rfl, hb⟩)
  case addr => exact rxMoves_next (.goesOn rfl rfl fun ⟨_, hb⟩ => ⟨rfl, hb⟩)
  case type =>
    simp only [rxTypeOctet]
    split
    · exact (rxMoves_raise _ id).of_withRx rfl rfl And.right
    · exact rxMoves_next (.goesOn rfl rfl fun ⟨_, hb⟩ => ⟨beq_iff_eq.2 ‹_›, hb⟩)
  case len1 =>
    have hk : rxProgress s.rx = true → rxTypeKnown s.rx = true := by simp [rxProgress, hq]
    simp only [rxLen1Octet]
    split
    · exact (rxRunFrameType_moves _).of_withRx rfl rfl fun ⟨hp, hb⟩ => ⟨hk hp, hb⟩
    · rename_i hea
      exact rxMoves_next (.goesOn rfl rfl fun ⟨hp, hb⟩ =>
        ⟨Bool.and_eq_true_iff.2 ⟨hk hp, by simpa using hea⟩, hb⟩)
  case len2 =>
    refine (rxRunFrameType_moves _).of_withRx rfl rfl fun ⟨hp, hb⟩ => ⟨?_, hb⟩
    rw [rxProgress, hq] at hp
    exact (Bool.and_eq_true_iff.1 hp).1
  case info => exact rxInfoOctet_moves hq b
  case fcs =>
    simp only [rxFcsOctet]
    split
    · exact rxMoves_raise _ And.right
    · exact rxMoves_next (.goesOn rfl rfl fun ⟨hp, hb⟩ =>
        ⟨(rxProgress_tail (.inr rfl)).2 ((rxProgress_tail (.inl hq)).1 hp), hb⟩)
  case close =>
    simp only [rxCloseOctet]
    split
    · exact rxMoves_raise _ And.right
    · exact rxMoves_next (.completed _ rfl rfl fun ⟨hp, hb⟩ =>
        ⟨rxFrame_wellFormed ((rxProgress_tail (.inr hq)).1 hp).2, hb⟩)

/-- R151 to R168: a source event. -/
theorem rxEvent_moves (e : SrcEvent) (s : State) :
    RxMoves (rxProgress s.rx = true ∧ RxBufSound s.rx.buf) s (rxEvent e s) := by
  cases e with
  | byte b => exact rxOctet_moves b s
  | eof => exact rxMoves_raise _ And.right
  | fault k => exact rxMoves_raise _ And.right

/-- R151: an RX step that answers a next state changes the RX engine by a source event of a BUSY engine, or not at all,
and never the TX engine. -/
theorem rxStep_next {s t : State} (h : rxStep s = .next t) : t.tx = s.tx ∧
    (t.rx = s.rx ∨
      s.rx.status.phase = .busy ∧ RxMove (rxProgress s.rx = true ∧ RxBufSound s.rx.buf) s.rx t.rx) := by
  rcases rxStep_cases s with ⟨-, hs⟩ | ⟨e, src, hb, -, hs⟩
  · cases hs.symm.trans h
    exact ⟨rfl, .inl rfl⟩
  · have he := hs.symm.trans h
    refine ⟨?_, .inr ⟨hb, rxEvent_moves e (withSource s src) t he⟩⟩
    rcases rxEvent_onlyRx e (withSource s src) with ⟨r, hr⟩ | hf | hf
    · cases hr.symm.trans he
      rfl
    · cases hf.symm.trans he
    · cases hf.symm.trans he

/-! ### What a sink answer does to the TX engine -/

/-- What a sink answer makes of the TX engine `e` (R207 to R209). -/
inductive TxMove (e : TxEngine) : TxEngine → Prop where
  /-- An octet before the last is accepted. -/
  | advanced (hmore : e.idx + 1 ≠ e.len) : TxMove e { e with idx := e.idx + 1 }
  /-- The last octet is accepted (R209). -/
  | completed (hlast : e.idx + 1 = e.len) :
      TxMove e { e with idx := e.idx + 1, status := statusComplete e.status }
  /-- The sink faults. -/
  | faulted (k : IoKind) : TxMove e { e with status := statusRaise (.io k) e.status }

/-- R207: a TX step that answers a next state changes the TX engine by a sink answer of a BUSY engine, or not at all, and
never the RX engine. -/
theorem txStep_next {s t : State} (h : txStep s = .next t) : t.rx = s.rx ∧
    (t.tx = s.tx ∨ s.tx.status.phase = .busy ∧ TxMove s.tx t.tx) := by
  rcases txStep_cases s with ⟨-, hs⟩ | ⟨r, ans, hb, -, -, hs⟩
  · cases hs.symm.trans h
    exact ⟨rfl, .inl rfl⟩
  · have he := hs.symm.trans h
    unfold txEmit at he
    split at he
    · cases r with
      | ok =>
        cases he
        rw [txAccept_eq]
        refine ⟨rfl, .inr ⟨hb, ?_⟩⟩
        by_cases hlast : s.tx.idx + 1 = s.tx.len
        · simpa only [if_pos hlast] using .completed hlast
        · simpa only [if_neg hlast] using .advanced hlast
      | fault k =>
        cases he
        exact ⟨rfl, .inr ⟨hb, .faulted k⟩⟩
    · cases he

/-! ### What a step does to each engine -/

/-- What a step from `s` can make of the RX engine. -/
inductive RxChange (s : State) : RxEngine → Prop where
  | same : RxChange s s.rx
  | reset (sch : List Agent) (hsch : s.schedule = .reset :: sch) : RxChange s RxEngine.reset
  /-- RX_START (R150). -/
  | start (acts : List HostAction) (sch : List Agent) (hact : HostActs s (.writeCmd 0b001#3) acts sch) :
      RxChange s { s.rx with status := statusStart s.rx.status, result := none, buf := memClear, state := .hunt }
  /-- RX_ABORT of a BUSY engine (R174). -/
  | abort (acts : List HostAction) (sch : List Agent) (hact : HostActs s (.writeCmd 0b010#3) acts sch)
      (hbusy : s.rx.status.phase = .busy) :
      RxChange s { s.rx with status := statusAbort s.rx.status, result := none }
  /-- A source event of a BUSY engine (R151). -/
  | move {r : RxEngine} (sch : List Agent) (hsch : s.schedule = .rx :: sch) (hbusy : s.rx.status.phase = .busy)
      (hmove : RxMove (rxProgress s.rx = true ∧ RxBufSound s.rx.buf) s.rx r) : RxChange s r

/-- What a step from `s` can make of the TX engine. -/
inductive TxChange (s : State) : TxEngine → Prop where
  | same : TxChange s s.tx
  | reset (sch : List Agent) (hsch : s.schedule = .reset :: sch) : TxChange s TxEngine.reset
  /-- A write of TX_DESC (R35). -/
  | desc (d : Frame) : TxChange s { s.tx with desc := some d }
  /-- TX_START (R200). -/
  | start (acts : List HostAction) (sch : List Agent) (hact : HostActs s (.writeCmd 0b101#3) acts sch)
      (octets : List Byte) (h6 : 6 ≤ octets.length) (h261 : octets.length ≤ 261) :
      TxChange s { s.tx with
        status := statusStart s.tx.status
        buf := memWriteAll s.tx.buf 0 octets
        len := BitVec.ofNat 9 octets.length
        idx := 0 }
  /-- TX_ABORT of a BUSY engine (R210). -/
  | abort (acts : List HostAction) (sch : List Agent) (hact : HostActs s (.writeCmd 0b110#3) acts sch)
      (hbusy : s.tx.status.phase = .busy) : TxChange s { s.tx with status := statusAbort s.tx.status }
  /-- A sink answer of a BUSY engine (R207). -/
  | move {e : TxEngine} (sch : List Agent) (hsch : s.schedule = .tx :: sch) (hbusy : s.tx.status.phase = .busy)
      (hmove : TxMove s.tx e) : TxChange s e

/-- A host step changes an engine only by its commands, and TX by a write of TX_DESC too. -/
theorem hostStep_changes {s t : State} {sch : List Agent} (hsch : s.schedule = .host :: sch)
    (h : hostStep (withSchedule s sch) = .next t) : RxChange s t.rx ∧ TxChange s t.tx := by
  rcases hostStep_next_cases h with rfl | ⟨a, acts, hacts, ho⟩
  · exact ⟨.same, .same⟩
  · cases ho with
    | same => exact ⟨.same, .same⟩
    | rxStart ha _ => exact ⟨.start acts sch ⟨hsch, ha ▸ hacts⟩, .same⟩
    | rxAbort ha hb => exact ⟨.abort acts sch ⟨hsch, ha ▸ hacts⟩ hb, .same⟩
    | txStart octets ha _ h6 h261 => exact ⟨.same, .start acts sch ⟨hsch, ha ▸ hacts⟩ octets h6 h261⟩
    | txAbort ha hb => exact ⟨.same, .abort acts sch ⟨hsch, ha ▸ hacts⟩ hb⟩
    | desc d _ => exact ⟨.same, .desc d⟩
    | read v => exact ⟨.same, .same⟩
    | readFree v => exact ⟨.same, .same⟩

/-- R7, R84: what a step does to the two engines. -/
theorem step_changes {s t : State} (h : step s = .next t) : RxChange s t.rx ∧ TxChange s t.tx := by
  rcases step_next_cases h with rfl | ⟨a, sch, hsch, ha⟩
  · exact ⟨.same, .same⟩
  · cases a with
    | host => exact hostStep_changes hsch ha
    | rx =>
      obtain ⟨htx, hrx | ⟨hb, hmove⟩⟩ := rxStep_next ha
      · exact ⟨hrx ▸ .same, htx ▸ .same⟩
      · exact ⟨.move sch hsch hb hmove, htx ▸ .same⟩
    | tx =>
      obtain ⟨hrx, htx | ⟨hb, hmove⟩⟩ := txStep_next ha
      · exact ⟨hrx ▸ .same, htx ▸ .same⟩
      · exact ⟨hrx ▸ .same, .move sch hsch hb hmove⟩
    | reset =>
      cases ha
      exact ⟨.reset sch hsch, .reset sch hsch⟩

/-! ### The invariant -/

/-- R63: the RX engine after reset is sound. -/
theorem rxSound_reset : rxSound RxEngine.reset = true := by decide

/-- R63: the TX engine after reset is sound. -/
theorem txSound_reset : txSound TxEngine.reset = true := by decide

/-- A source event keeps a BUSY RX engine sound. -/
theorem RxMove.sound {r r' : RxEngine} (hbusy : r.status.phase = .busy) (h : rxSound r = true)
    (hmove : RxMove (rxProgress r = true ∧ RxBufSound r.buf) r r') : rxSound r' = true := by
  obtain ⟨hlegal, hresult, hprogress, hbuf⟩ := (rxSound_iff r).1 h
  have hP : rxProgress r = true ∧ RxBufSound r.buf := ⟨hprogress hbusy, hbuf⟩
  rw [rxSound_iff]
  cases hmove with
  | goesOn hst hres hs =>
    obtain ⟨hp, hb⟩ := hs hP
    refine ⟨hst ▸ hlegal, ?_, fun _ => hp, hb⟩
    rwa [resultLegal, hst, hres]
  | raised e hst hres hs =>
    refine ⟨hst ▸ statusLegal_raise _ e, ?_, ?_, hs hP⟩
    · simp [resultLegal, hst, hres]
    · simp [hst]
  | completed f hst hres hs =>
    obtain ⟨hf, hb⟩ := hs hP
    refine ⟨hst ▸ statusLegal_complete _ 5, ?_, ?_, hb⟩
    · simp [resultLegal, hst, hres, hf]
    · simp [hst]

/-- Every step keeps the RX engine sound. -/
theorem RxChange.sound {s : State} {r : RxEngine} (h : rxSound s.rx = true) (hc : RxChange s r) :
    rxSound r = true := by
  obtain ⟨-, -, -, hbuf⟩ := (rxSound_iff s.rx).1 h
  cases hc with
  | same => exact h
  | reset sch _ => exact rxSound_reset
  | start acts sch _ => exact (rxSound_iff _).2 ⟨statusLegal_start _ 5, rfl, fun _ => rfl, rfl, rfl⟩
  | abort acts sch _ _ => exact (rxSound_iff _).2 ⟨statusLegal_abort _ 5, rfl, nofun, hbuf⟩
  | move sch _ hbusy hmove => exact hmove.sound hbusy h

/-- A sink answer keeps a BUSY TX engine sound. -/
theorem TxMove.sound {e e' : TxEngine} (hbusy : e.status.phase = .busy) (h : txSound e = true) (hmove : TxMove e e') :
    txSound e' = true := by
  obtain ⟨hlegal, hprogress, hbuf⟩ := (txSound_iff e).1 h
  rw [txSound_iff]
  cases hmove with
  | advanced hmore =>
    obtain ⟨hlt, h6, h261⟩ := hprogress hbusy
    exact ⟨hlegal, fun _ => ⟨by bv_omega, h6, h261⟩, hbuf⟩
  | completed _ => exact ⟨statusLegal_complete e.status 1, nofun, hbuf⟩
  | faulted k => exact ⟨statusLegal_raise_io e.status k, nofun, hbuf⟩

/-- Every step keeps the TX engine sound. -/
theorem TxChange.sound {s : State} {e : TxEngine} (h : txSound s.tx = true) (hc : TxChange s e) :
    txSound e = true := by
  obtain ⟨hlegal, hprogress, hwf, hin⟩ := (txSound_iff s.tx).1 h
  cases hc with
  | same => exact h
  | reset sch _ => exact txSound_reset
  | desc d => exact (txSound_iff _).2 ⟨hlegal, hprogress, hwf, hin⟩
  | start acts sch _ octets h6 h261 =>
    have hlen : (BitVec.ofNat 9 octets.length).toNat = octets.length := Nat.mod_eq_of_lt (by omega)
    refine (txSound_iff _).2 ⟨statusLegal_start _ 1, fun _ => ?_, memWriteAll_wf hwf 0 octets,
      memWriteAll_within hin (by omega)⟩
    simp only [hlen]
    exact ⟨show 0 < octets.length by omega, h6, h261⟩
  | abort acts sch _ _ => exact (txSound_iff _).2 ⟨statusLegal_abort _ 1, nofun, hwf, hin⟩
  | move sch _ hbusy hmove => exact hmove.sound hbusy h

/-- Settles O38: each engine's change in a step keeps it sound. -/
theorem everyStepKeepsInvariant : Obligations.EveryStepKeepsInvariant := by
  rintro s t ⟨hrx, htx⟩ h
  obtain ⟨hrc, htc⟩ := step_changes h
  exact ⟨hrc.sound hrx, htc.sound htx⟩

/-- Settles O37: both engines are sound after reset. -/
theorem resetSatisfiesInvariant : Obligations.ResetSatisfiesInvariant := ⟨rxSound_reset, txSound_reset⟩

/-! ### Results that stay, and the changes of PHASE -/

/-- R39: while RX is not BUSY, only reset and RX_START change its status or its result. -/
theorem RxChange.status_result_eq {s : State} {r : RxEngine} (hc : RxChange s r) (hquiet : s.rx.status.phase ≠ .busy)
    (hreset : ∀ sch, s.schedule ≠ .reset :: sch) (hstart : ∀ acts sch, ¬ HostActs s (.writeCmd 0b001#3) acts sch) :
    r.status = s.rx.status ∧ r.result = s.rx.result := by
  cases hc with
  | same => exact ⟨rfl, rfl⟩
  | reset sch hsch => exact absurd hsch (hreset sch)
  | start acts sch hact => exact absurd hact (hstart acts sch)
  | abort acts sch _ hbusy => exact absurd hbusy hquiet
  | move sch _ hbusy _ => exact absurd hbusy hquiet

/-- R39: while TX is not BUSY, only reset and TX_START change its status. -/
theorem TxChange.status_eq {s : State} {e : TxEngine} (hc : TxChange s e) (hquiet : s.tx.status.phase ≠ .busy)
    (hreset : ∀ sch, s.schedule ≠ .reset :: sch) (hstart : ∀ acts sch, ¬ HostActs s (.writeCmd 0b101#3) acts sch) :
    e.status = s.tx.status := by
  cases hc with
  | same => rfl
  | reset sch hsch => exact absurd hsch (hreset sch)
  | desc d => rfl
  | start acts sch hact _ _ _ => exact absurd hact (hstart acts sch)
  | abort acts sch _ hbusy => exact absurd hbusy hquiet
  | move sch _ hbusy _ => exact absurd hbusy hquiet

/-- Settles O41: of the changes of an engine that is not BUSY, only its START and reset touch status and result. -/
theorem resultsStayUntilStartOrReset : Obligations.ResultsStayUntilStartOrReset := by
  intro s t h hreset
  obtain ⟨hrc, htc⟩ := step_changes h
  exact ⟨fun hquiet hstart => hrc.status_result_eq hquiet hreset hstart,
    fun hquiet hstart => htc.status_eq hquiet hreset hstart⟩

/-- R38: a source event that changes PHASE completes the transaction or raises. -/
theorem RxMove.phase_change {P : Prop} {r r' : RxEngine} (hmove : RxMove P r r')
    (hne : r'.status.phase ≠ r.status.phase) :
    r'.status.phase = .done ∧ r'.status.err = 0 ∧ r'.result ≠ none ∨
      r'.status.phase = .error ∧ r'.status.err ≠ 0 ∧ r'.result = none := by
  cases hmove with
  | goesOn hst _ _ => exact absurd (congrArg Status.phase hst) hne
  | raised e hst hres _ =>
    rw [hst]
    exact .inr ⟨rfl, (errCode_range e).1, hres⟩
  | completed f hst hres _ =>
    rw [hst, hres]
    exact .inl ⟨rfl, rfl, Option.some_ne_none f⟩

/-- R38: a sink answer that changes PHASE completes the transaction or raises Io. -/
theorem TxMove.phase_change {e e' : TxEngine} (hmove : TxMove e e') (hne : e'.status.phase ≠ e.status.phase) :
    e'.status.phase = .done ∧ e'.status.err = 0 ∨ e'.status.phase = .error ∧ e'.status.err = 1 := by
  cases hmove with
  | advanced _ => exact absurd rfl hne
  | completed _ => exact .inl ⟨rfl, rfl⟩
  | faulted k => exact .inr ⟨rfl, rfl⟩

/-- Settles O42: each change of an engine is a row of the table, or leaves PHASE as it is. -/
theorem phaseChangesOnlyByItsEvents : Obligations.PhaseChangesOnlyByItsEvents := by
  intro s t h
  obtain ⟨hrc, htc⟩ := step_changes h
  constructor
  · intro hne
    generalize t.rx = r at hrc hne
    cases hrc with
    | same => exact absurd rfl hne
    | reset sch hsch => exact .inl ⟨⟨sch, hsch⟩, rfl, rfl, rfl⟩
    | start acts sch hact => exact .inr (.inl ⟨⟨acts, sch, hact⟩, rfl, rfl, rfl⟩)
    | abort acts sch hact hbusy => exact .inr (.inr (.inl ⟨hbusy, ⟨acts, sch, hact⟩, rfl, rfl, rfl⟩))
    | move sch hsch hbusy hmove => exact .inr (.inr (.inr ⟨hbusy, ⟨sch, hsch⟩, hmove.phase_change hne⟩))
  · intro hne
    generalize t.tx = e at htc hne
    cases htc with
    | same => exact absurd rfl hne
    | reset sch hsch => exact .inl ⟨⟨sch, hsch⟩, rfl, rfl⟩
    | desc d => exact absurd rfl hne
    | start acts sch hact _ _ _ => exact .inr (.inl ⟨⟨acts, sch, hact⟩, rfl, rfl⟩)
    | abort acts sch hact hbusy => exact .inr (.inr (.inl ⟨hbusy, ⟨acts, sch, hact⟩, rfl, rfl⟩))
    | move sch hsch hbusy hmove => exact .inr (.inr (.inr ⟨hbusy, ⟨sch, hsch⟩, hmove.phase_change hne⟩))

/-! ### Reset's values, and the host's reads and writes -/

/-- Settles O1: each register's value in `State.reset`. -/
theorem resetLeavesStatedRegisters : Obligations.ResetLeavesStatedRegisters := ⟨rfl, rfl, rfl, rfl, rfl, rfl⟩

/-- R33: the four values of PHASE as the host reads them. -/
theorem phaseCode_mem (ph : Phase) :
    (phaseCode ph, ph) ∈ [((0 : BitVec 2), Phase.idle), (1, .busy), (2, .done), (3, .error)] := by
  cases ph <;> simp [phaseCode]

/-- R33, R36: a read of the status register that holds `st`. -/
theorem hostReadStatus_shows (st : Status) (s : State) (acts : List HostAction) (sch : List Agent) :
    ∃ (ph : BitVec 2) (k : IoKind),
      (ph, st.phase) ∈ [(0, Phase.idle), (1, .busy), (2, .done), (3, .error)] ∧ (st.err = 1 → k = st.ioKind) ∧
      hostReadStatus st (hostTaken s acts sch) = .next { s with
        schedule := sch, host := ⟨acts, some (.status ph st.err k)⟩, freeCount := s.freeCount + 1 } :=
  ⟨_, _, phaseCode_mem st.phase, fun herr => if_pos herr, rfl⟩

/-- Settles O31: both status registers are read by the one rule. -/
theorem statusReadShowsFields : Obligations.StatusReadShowsFields := by
  intro s acts sch p hp hact
  rw [step_of_hostActs hact]
  rcases List.mem_pair.1 hp with rfl | rfl
  · exact hostReadStatus_shows s.rx.status s acts sch
  · exact hostReadStatus_shows s.tx.status s acts sch

/-- R34: RX_RESULT is shown in DONE. -/
theorem hostReadRxResult_done {s : State} {f : Frame} (hdone : s.rx.status.phase = .done) (hf : s.rx.result = some f) :
    hostReadRxResult s = .next (withLastRead s (.frame f)) := by
  simp only [hostReadRxResult, hdone, hf]

/-- R34: RX_RESULT is refused outside DONE. -/
theorem hostReadRxResult_refused {s : State} (h : s.rx.status.phase ≠ .done) :
    hostReadRxResult s = .refused .resultNotValid := by
  unfold hostReadRxResult
  split
  · exact absurd ‹_› h
  · rfl

/-- Settles O32: the read goes by PHASE alone. -/
theorem resultReadOnlyWhenDone : Obligations.ResultReadOnlyWhenDone := by
  intro s acts sch hact
  rw [step_of_hostActs hact]
  exact ⟨fun f hdone hf => hostReadRxResult_done (s := hostTaken s acts sch) hdone hf,
    fun h => hostReadRxResult_refused (s := hostTaken s acts sch) h⟩

/-- R35: a read of a TX_DESC that has been written. -/
theorem hostReadTxDesc_written {s : State} {d : Frame} (h : s.tx.desc = some d) :
    hostReadTxDesc s = .next (withLastRead s (.frame d)) := by
  simp only [hostReadTxDesc, h]

/-- Settles O33: neither the write nor the read looks at PHASE. -/
theorem descriptorWriteAndRead : Obligations.DescriptorWriteAndRead := by
  intro s d acts sch
  constructor
  · intro hact
    rw [step_of_hostActs hact]
    rfl
  · intro hact hd
    rw [step_of_hostActs hact]
    exact hostReadTxDesc_written (s := hostTaken s acts sch) hd

end Sys2Proof.Machine

/-! PROOFS. The memory family: in a sound state no agent leaves a buffer (R81), and what a step can move beside its own
engine, said once (`StepFrame`), from which the isolation of the engines and the pace of the streams follow. -/

namespace Sys2Proof.Machine

/-! ### No index is left -/

theorem OnlyRx.ne_fault {s : State} {o : Result} (h : OnlyRx s o) (f : Fault) : o ≠ .fault f := by
  obtain ⟨r, rfl⟩ := h
  nofun

/-- R163, R230: a complete information field that lies in `rx_buf` changes the RX engine only. -/
theorem rxRunInfoType_onlyRx_of_len {s : State} (hlen : 1 ≤ s.rx.len.toNat ∧ s.rx.len.toNat ≤ 254) :
    OnlyRx s (rxRunInfoType s) := by
  unfold rxRunInfoType
  split
  · exact onlyRx_raise _ s
  · rename_i i h
    obtain ⟨T, -, rfl⟩ := decodeInfoTag_ok h
    rw [exec_infoInstr]
    split
    · rw [readInfo_of_payload (rxPayload_some hlen)]
      exact acceptInfo_onlyRx _ _ s
    · exact onlyRx_raise _ s

/-- R162: an octet of an information field of at most 254 octets, not yet complete, changes the RX engine only. -/
theorem rxInfoOctet_onlyRx {s : State} (b : Byte) (hlen : s.rx.len.toNat ≤ 254)
    (hcnt : s.rx.cnt.toNat < s.rx.len.toNat) : OnlyRx s (rxInfoOctet b s) := by
  rw [rxInfoOctet_fits (Nat.lt_of_lt_of_le hcnt hlen)]
  by_cases hend : (rxStoreInfo b s).rx.cnt.toNat = (rxStoreInfo b s).rx.len.toNat
  · rw [rxCheckInfoEnd_of_eq hend]
    exact onlyRx_of_withRx (rxRunInfoType_onlyRx_of_len ⟨Nat.one_le_of_lt hcnt, hlen⟩)
  · rw [rxCheckInfoEnd_of_ne hend]
    exact onlyRx_of_withRx (onlyRx_rxGoto _ _)

/-- R152 to R168: only an octet of an information field can leave `rx_buf`. -/
theorem rxOctet_fault_state {b : Byte} {s : State} {f : Fault} (h : rxOctet b s = .fault f) : s.rx.state = .info := by
  cases hq : s.rx.state <;> simp only [rxOctet, hq] at h
  case hunt =>
    unfold rxHuntOctet at h
    split at h <;> cases h
  case addr => cases h
  case type =>
    unfold rxTypeOctet at h
    split at h <;> cases h
  case len1 =>
    unfold rxLen1Octet at h
    split at h
    · exact absurd h ((exec_frameInstr_onlyRx _ _ _).ne_fault f)
    · cases h
  case len2 => exact absurd h ((exec_frameInstr_onlyRx _ _ _).ne_fault f)
  case info => rfl
  case fcs =>
    unfold rxFcsOctet at h
    split at h <;> cases h
  case close =>
    unfold rxCloseOctet at h
    split at h <;> cases h

/-- R42, R162: a decode whose working registers agree with its position stays inside `rx_buf`. -/
theorem rxEvent_ne_fault {s : State} (h : rxProgress s.rx = true) (e : SrcEvent) (f : Fault) :
    rxEvent e s ≠ .fault f := by
  cases e with
  | byte b =>
    intro hf
    have hq : s.rx.state = .info := rxOctet_fault_state hf
    obtain ⟨-, -, hlen, hcnt⟩ := (rxProgress_info hq).1 h
    simp only [rxEvent, rxOctet, hq] at hf
    exact (rxInfoOctet_onlyRx b hlen hcnt).ne_fault f hf
  | eof => nofun
  | fault k => nofun

theorem rxStep_ne_fault {s : State} (h : rxSound s.rx = true) (f : Fault) : rxStep s ≠ .fault f := by
  obtain ⟨-, -, hprogress, -⟩ := (rxSound_iff s.rx).1 h
  rcases rxStep_cases s with ⟨-, hs⟩ | ⟨e, src, hbusy, -, hs⟩
  · rw [hs]
    nofun
  · rw [hs]
    exact rxEvent_ne_fault (s := withSource s src) (hprogress hbusy) e f

/-- R44, R207: an octet that is offered from inside `tx_buf`. -/
theorem txEmit_ne_fault {s : State} (h : s.tx.idx.toNat < 261) (r : SinkAnswer) (f : Fault) :
    txEmit r s ≠ .fault f := by
  unfold txEmit
  rw [if_pos (show s.tx.idx.toNat < txBufLen from h)]
  cases r <;> nofun

theorem txStep_ne_fault {s : State} (h : txSound s.tx = true) (f : Fault) : txStep s ≠ .fault f := by
  obtain ⟨-, hprogress, -⟩ := (txSound_iff s.tx).1 h
  rcases txStep_cases s with ⟨-, hs⟩ | ⟨r, ans, hbusy, hidx, -, hs⟩
  · rw [hs]
    nofun
  · obtain ⟨-, -, hlen⟩ := hprogress hbusy
    rw [hs]
    exact txEmit_ne_fault (s := { s with sinkAnswers := ans }) (Nat.lt_of_lt_of_le hidx hlen) r f

/-- R342: a host action is done or refused. -/
theorem hostStep_ne_fault (s : State) (f : Fault) : hostStep s ≠ .fault f := by
  unfold hostStep
  split
  · nofun
  · intro h
    cases h ▸ hostAct_outcome _ _

theorem agentStep_ne_fault {s : State} (h : s.Inv) (a : Agent) (f : Fault) : agentStep a s ≠ .fault f := by
  obtain ⟨hrx, htx⟩ := h
  cases a with
  | host => exact hostStep_ne_fault s f
  | rx => exact rxStep_ne_fault hrx f
  | tx => exact txStep_ne_fault htx f
  | reset => nofun

/-- Settles O39: each agent's step stays inside the buffers of a sound engine. -/
theorem soundStateNeverFaults : Obligations.SoundStateNeverFaults := by
  intro s f h
  unfold step
  split
  · nofun
  · rename_i a sch _
    exact agentStep_ne_fault (s := withSchedule s sch) h a f

/-! ### What a step can move -/

/-- What a step from `s` can move beside the two engines: which stream, and by how much. -/
inductive StepFrame (s : State) : State → Prop where
  /-- No engine is scheduled: the streams and the parameters stay. -/
  | noEngine {t : State} (hrx : ∀ sch, s.schedule ≠ .rx :: sch) (htx : ∀ sch, s.schedule ≠ .tx :: sch)
      (hparams : t.params = s.params) (hsource : t.source = s.source) (hanswers : t.sinkAnswers = s.sinkAnswers)
      (hoctets : t.sinkOctets = s.sinkOctets) : StepFrame s t
  /-- An agent is scheduled and has nothing to do (log 6). -/
  | waits {a : Agent} {sch : List Agent} (hsch : s.schedule = a :: sch) : StepFrame s (withSchedule s sch)
  /-- The RX engine takes the source's next answer (R151). -/
  | rxTakes {e : SrcEvent} {src : List SrcEvent} {sch : List Agent} (htakes : RxTakes s s.rx.state e src sch)
      (r : RxEngine) : StepFrame s (withRx (rxTaken s src sch) r)
  /-- The sink accepts the octet that the TX engine offers (R207). -/
  | txAccepted {ans : List SinkAnswer} {sch : List Agent} (htakes : TxTakes s .ok ans sch) (e : TxEngine) :
      StepFrame s { s with
        schedule := sch
        sinkAnswers := ans
        sinkOctets := s.sinkOctets ++ [memRead s.tx.buf s.tx.idx.toNat]
        tx := e }
  /-- The sink faults at the octet that the TX engine offers (R208). -/
  | txFaulted {k : IoKind} {ans : List SinkAnswer} {sch : List Agent} (htakes : TxTakes s (.fault k) ans sch)
      (e : TxEngine) : StepFrame s { s with schedule := sch, sinkAnswers := ans, tx := e }

/-- R7: a host step moves neither stream. -/
theorem hostStep_frame {s t : State} {sch : List Agent} (hsch : s.schedule = .host :: sch)
    (h : hostStep (withSchedule s sch) = .next t) : StepFrame s t := by
  have hrx : ∀ sch, s.schedule ≠ .rx :: sch := by simp [hsch]
  have htx : ∀ sch, s.schedule ≠ .tx :: sch := by simp [hsch]
  rcases hostStep_next_cases h with rfl | ⟨a, acts, -, ho⟩
  · exact .waits hsch
  · cases ho <;> exact .noEngine hrx htx rfl rfl rfl rfl

/-- R151: a step of the RX engine waits or takes one source answer. -/
theorem rxStep_frame {s t : State} {sch : List Agent} (hsch : s.schedule = .rx :: sch)
    (h : rxStep (withSchedule s sch) = .next t) : StepFrame s t := by
  rcases rxStep_cases (withSchedule s sch) with ⟨-, hs⟩ | ⟨e, src, hbusy, hsource, hs⟩
  · cases hs.symm.trans h
    exact .waits hsch
  · have he := hs.symm.trans h
    rcases rxEvent_onlyRx e (withSource (withSchedule s sch) src) with ⟨r, hr⟩ | hf | hf
    · cases hr.symm.trans he
      exact .rxTakes ⟨hsch, hsource, hbusy, rfl⟩ r
    · cases hf.symm.trans he
    · cases hf.symm.trans he

/-- R207, R208: an offer that answers a next state is accepted, or meets a sink fault. -/
theorem txEmit_next {r : SinkAnswer} {s t : State} (h : txEmit r s = .next t) :
    (r = .ok ∧ t = txAccept (memRead s.tx.buf s.tx.idx.toNat) s) ∨ ∃ k, r = .fault k ∧ t = raise .tx (.io k) s := by
  unfold txEmit at h
  split at h
  · cases r with
    | ok => exact .inl ⟨rfl, (Host.Outcome.next.inj h).symm⟩
    | fault k => exact .inr ⟨k, rfl, (Host.Outcome.next.inj h).symm⟩
  · cases h

/-- R207: a step of the TX engine waits or takes one sink answer. -/
theorem txStep_frame {s t : State} {sch : List Agent} (hsch : s.schedule = .tx :: sch)
    (h : txStep (withSchedule s sch) = .next t) : StepFrame s t := by
  rcases txStep_cases (withSchedule s sch) with ⟨-, hs⟩ | ⟨r, ans, hbusy, hidx, hanswers, hs⟩
  · cases hs.symm.trans h
    exact .waits hsch
  · rcases txEmit_next (hs.symm.trans h) with ⟨rfl, rfl⟩ | ⟨k, rfl, rfl⟩
    · rw [txAccept_eq]
      exact .txAccepted ⟨hsch, hanswers, hbusy, hidx⟩ _
    · exact .txFaulted ⟨hsch, hanswers, hbusy, hidx⟩ _

/-- R7, R84: what a step moves. -/
theorem step_frame {s t : State} (h : step s = .next t) : StepFrame s t := by
  cases hsch : s.schedule with
  | nil =>
    simp only [step, hsch] at h
    cases h
    exact .noEngine (by simp [hsch]) (by simp [hsch]) rfl rfl rfl rfl
  | cons a sch =>
    simp only [step, hsch] at h
    cases a with
    | host => exact hostStep_frame hsch h
    | rx => exact rxStep_frame hsch h
    | tx => exact txStep_frame hsch h
    | reset =>
      cases h
      exact .noEngine (by simp [hsch]) (by simp [hsch]) rfl rfl rfl rfl

/-- R373: no step changes the parameters. -/
theorem StepFrame.params_eq {s t : State} (h : StepFrame s t) : t.params = s.params := by
  cases h with
  | noEngine _ _ hparams _ _ _ => exact hparams
  | waits _ => rfl
  | rxTakes _ r => rfl
  | txAccepted _ e => rfl
  | txFaulted _ e => rfl

/-- R84, R347: a step of the RX engine changes that engine, the source and the schedule only. -/
theorem StepFrame.of_rx {s t : State} {sch : List Agent} (h : StepFrame s t) (hsch : s.schedule = .rx :: sch) :
    t = { s with schedule := sch, rx := t.rx, source := t.source } := by
  cases h with
  | noEngine hrx _ _ _ _ _ => exact absurd hsch (hrx sch)
  | waits hsch' =>
    cases hsch.symm.trans hsch'
    rfl
  | rxTakes htakes r =>
    cases hsch.symm.trans htakes.1
    rfl
  | txAccepted htakes e => cases hsch.symm.trans htakes.1
  | txFaulted htakes e => cases hsch.symm.trans htakes.1

/-- R84, R347: a step of the TX engine changes that engine, the sink and the schedule only. -/
theorem StepFrame.of_tx {s t : State} {sch : List Agent} (h : StepFrame s t) (hsch : s.schedule = .tx :: sch) :
    t = { s with schedule := sch, tx := t.tx, sinkAnswers := t.sinkAnswers, sinkOctets := t.sinkOctets } := by
  cases h with
  | noEngine _ htx _ _ _ _ => exact absurd hsch (htx sch)
  | waits hsch' =>
    cases hsch.symm.trans hsch'
    rfl
  | rxTakes htakes r => cases hsch.symm.trans htakes.1
  | txAccepted htakes e =>
    cases hsch.symm.trans htakes.1
    rfl
  | txFaulted htakes e =>
    cases hsch.symm.trans htakes.1
    rfl

/-- Settles O40: what a step of each engine moves is its own. -/
theorem enginesAreIsolated : Obligations.EnginesAreIsolated := by
  intro s t sch h
  have hframe : StepFrame s t := step_frame h
  exact ⟨hframe.params_eq, hframe.of_rx, hframe.of_tx⟩

/-- Settles O43: the streams stay, or one of them moves by the one answer that its BUSY engine takes. -/
theorem streamsMoveOneEventPerStep : Obligations.StreamsMoveOneEventPerStep := by
  intro s t h
  cases step_frame h with
  | noEngine _ _ _ hsource hanswers hoctets => exact ⟨.inl hsource, .inl ⟨hanswers, hoctets⟩⟩
  | waits _ => exact ⟨.inl rfl, .inl ⟨rfl, rfl⟩⟩
  | rxTakes htakes r =>
    obtain ⟨hsch, hsource, hbusy, -⟩ := htakes
    exact ⟨.inr ⟨⟨_, hsource⟩, hbusy, _, hsch⟩, .inl ⟨rfl, rfl⟩⟩
  | txAccepted htakes e =>
    obtain ⟨hsch, hanswers, hbusy, -⟩ := htakes
    exact ⟨.inl rfl, .inr ⟨.inl ⟨hanswers, rfl⟩, hbusy, _, hsch⟩⟩
  | txFaulted htakes e =>
    obtain ⟨hsch, hanswers, hbusy, -⟩ := htakes
    exact ⟨.inl rfl, .inr ⟨.inr ⟨⟨_, hanswers⟩, rfl⟩, hbusy, _, hsch⟩⟩

end Sys2Proof.Machine

/-! PROOFS. The encoding family: what a classified octet's key says (`classifyInfoTag_eq_some_iff`,
`classifyFrameType_key`), the encoder on a classified octet's instruction, and from them that decoder and encoder invert
each other in each slot; then the step that runs what a slot decodes. -/

namespace Sys2Proof.Machine

/-! ### Classification by key -/

/-- R53: the list of the information types is complete. -/
theorem mem_infoTypes (T : InfoType) : T ∈ infoTypes := by
  cases T <;> decide

/-- R10: the values of a legal INFO_TAG tell the information types apart. -/
theorem infoTagOf_injective {tags : InfoTags} (h : tags.wellFormed = true) {T U : InfoType}
    (heq : infoTagOf tags T = infoTagOf tags U) : T = U := by
  have hnodup : (infoTypes.map (infoTagOf tags)).Nodup := by
    simp only [InfoTags.wellFormed, InfoTags.distinct, Bool.and_eq_true, decide_eq_true_eq] at h
    obtain ⟨⟨hdistinct, -⟩, -⟩ := h
    exact hdistinct
  exact List.inj_on_of_nodup_map hnodup (mem_infoTypes T) (mem_infoTypes U) heq

/-- R111: a tag octet is classified by its key. -/
theorem classifyInfoTag_key {tags : InfoTags} {g : Byte} {T : InfoType} (h : classifyInfoTag tags g = some T) :
    infoTagOf tags T = g &&& 0xFC#8 := by
  have hkey := List.find?_some h
  exact beq_iff_eq.mp hkey

/-- R111: under a legal INFO_TAG the key selects one type. -/
theorem classifyInfoTag_eq_some_iff {tags : InfoTags} (h : tags.wellFormed = true) (g : Byte) (T : InfoType) :
    classifyInfoTag tags g = some T ↔ infoTagOf tags T = g &&& 0xFC#8 := by
  refine ⟨classifyInfoTag_key, fun hkey => ?_⟩
  have hfound : (classifyInfoTag tags g).isSome = true :=
    List.find?_isSome.mpr ⟨T, mem_infoTypes T, beq_iff_eq.mpr hkey⟩
  obtain ⟨U, hU⟩ := Option.isSome_iff_exists.mp hfound
  rw [hU, infoTagOf_injective h ((classifyInfoTag_key hU).trans hkey.symm)]

/-- R105, R106: a TYPE octet is classified by its key. -/
theorem classifyFrameType_key {t : Byte} {ft : FrameType} (h : classifyFrameType t = some ft) :
    frameTypeTag ft = t &&& 0xEF#8 := by
  have hkey := List.find?_some h
  exact beq_iff_eq.mp hkey

/-- What a frame type decoded from a TYPE octet is. -/
theorem decodeFrameType_ok {t : Byte} {i : Instr} (h : decodeFrameType t = .ok i) :
    ∃ ft, classifyFrameType t = some ft ∧ i = frameInstr ft (pfOf t) := by
  unfold decodeFrameType at h
  split at h
  · exact ⟨_, ‹_›, (Except.ok.inj h).symm⟩
  · cases h

/-! ### The slot and the code of a classified octet's instruction -/

@[simp] theorem frameInstr_slot (ft : FrameType) (pf : PollFinal) : (frameInstr ft pf).slot = .frameType := by
  cases ft <;> rfl

@[simp] theorem infoInstr_slot (T : InfoType) (cr : CommandResponse) : (infoInstr T cr).slot = .infoTag := by
  cases T <;> rfl

@[simp] theorem encode_frameInstr (tags : InfoTags) (ft : FrameType) (pf : PollFinal) :
    encode tags (frameInstr ft pf) = typeOctet ft pf := by
  cases ft <;> rfl

@[simp] theorem encode_infoInstr (tags : InfoTags) (T : InfoType) (cr : CommandResponse) :
    encode tags (infoInstr T cr) = tagOctet tags T cr := by
  cases T <;> rfl

/-- R122: a command's slot and its code, zero-extended to an octet. -/
theorem encode_of_decodeCmd (tags : InfoTags) {c : BitVec 3} {i : Instr} (h : decodeCmd c = .ok i) :
    i.slot = .cmd ∧ encode tags i = c.setWidth 8 := by
  rcases decodeCmd_ok h with ⟨rfl, rfl⟩ | ⟨rfl, rfl⟩ | ⟨rfl, rfl⟩ | ⟨rfl, rfl⟩ | ⟨rfl, rfl⟩ <;> exact ⟨rfl, rfl⟩

/-! ### Decoding a code -/

/-- R105, R203: a TYPE octet as written is decoded to its frame type's instruction. -/
theorem decodeFrameType_typeOctet (ft : FrameType) (pf : PollFinal) :
    decodeFrameType (typeOctet ft pf) = .ok (frameInstr ft pf) := by
  obtain ⟨hft, hpf⟩ := typeOctet_fields ft pf
  simp only [decodeFrameType, hft, hpf]

/-- R110, R206: a tag octet as written is decoded to its information type's instruction. -/
theorem decodeInfoTag_tagOctet {tags : InfoTags} (h : tags.wellFormed = true) (T : InfoType) (cr : CommandResponse) :
    decodeInfoTag tags (tagOctet tags T cr) = .ok (infoInstr T cr) := by
  obtain ⟨hkey, hcr⟩ := or_crBit_fields (infoTagOf_low h T) cr
  have hT : classifyInfoTag tags (tagOctet tags T cr) = some T :=
    (classifyInfoTag_eq_some_iff h _ T).mpr hkey.symm
  have hcr' : crOf (tagOctet tags T cr) = cr := hcr
  simp only [decodeInfoTag, hT, hcr']

/-- Settles O44: the codes of the commands by computation, a TYPE octet and a tag octet by their two fields. -/
theorem decodeInvertsEncode : Obligations.DecodeInvertsEncode := by
  intro tags i h
  cases i with
  | nop => rfl
  | rxStart => rfl
  | rxAbort => rfl
  | txStart => rfl
  | txAbort => rfl
  | sabm pf => exact decodeFrameType_typeOctet .sabm pf
  | ua pf => exact decodeFrameType_typeOctet .ua pf
  | dm pf => exact decodeFrameType_typeOctet .dm pf
  | disc pf => exact decodeFrameType_typeOctet .disc pf
  | uih pf => exact decodeFrameType_typeOctet .uih pf
  | ui pf => exact decodeFrameType_typeOctet .ui pf
  | pn cr => exact decodeInfoTag_tagOctet h .pn cr
  | psc cr => exact decodeInfoTag_tagOctet h .psc cr
  | cld cr => exact decodeInfoTag_tagOctet h .cld cr
  | test cr => exact decodeInfoTag_tagOctet h .test cr
  | fcOn cr => exact decodeInfoTag_tagOctet h .fcOn cr
  | fcOff cr => exact decodeInfoTag_tagOctet h .fcOff cr
  | msc cr => exact decodeInfoTag_tagOctet h .msc cr
  | nsc cr => exact decodeInfoTag_tagOctet h .nsc cr
  | rpn cr => exact decodeInfoTag_tagOctet h .rpn cr
  | rls cr => exact decodeInfoTag_tagOctet h .rls cr
  | snc cr => exact decodeInfoTag_tagOctet h .snc cr

/-! ### Encoding what was decoded -/

/-- R105, R51: a TYPE octet is its key and its P/F bit. -/
theorem key_or_pfBit (t : Byte) : t &&& 0xEF#8 ||| pfBit (pfOf t) = t := by
  revert t; decide

/-- R110, R50: a tag octet is its key, its C/R bit and the bit 0 that no field holds. -/
theorem key_or_crBit (g : Byte) : g &&& 0xFC#8 ||| crBit (crOf g) = g &&& 0xFE#8 := by
  revert g; decide

/-- R105, R203: the TYPE octet of a classified octet's fields is the octet. -/
theorem typeOctet_of_classify {t : Byte} {ft : FrameType} (h : classifyFrameType t = some ft) :
    typeOctet ft (pfOf t) = t := by
  rw [typeOctet, classifyFrameType_key h, key_or_pfBit]

/-- R110, R206: the tag octet of a classified octet's fields is the octet with bit 0 cleared. -/
theorem tagOctet_of_classify {tags : InfoTags} {g : Byte} {T : InfoType} (h : classifyInfoTag tags g = some T) :
    tagOctet tags T (crOf g) = g &&& 0xFE#8 := by
  rw [tagOctet, classifyInfoTag_key h, key_or_crBit]

/-- R122: an octet below 8 is its low three bits, zero-extended. -/
theorem setWidth_setWidth_of_lt {w : Byte} (h : w.toNat < 8) : (w.setWidth 3).setWidth 8 = w := by
  apply BitVec.eq_of_toNat_eq
  simp only [BitVec.toNat_setWidth]
  omega

/-- Settles O45: in each slot the decoded instruction's fields make up the word again. -/
theorem encodeInvertsDecode : Obligations.EncodeInvertsDecode := by
  intro tags slot w i _ h
  cases slot with
  | cmd =>
    simp only [decode] at h
    split at h
    · rename_i hw
      obtain ⟨hslot, hcode⟩ := encode_of_decodeCmd tags h
      exact ⟨hslot, hcode.trans (setWidth_setWidth_of_lt hw)⟩
    · cases h
  | frameType =>
    obtain ⟨ft, hft, rfl⟩ := decodeFrameType_ok h
    exact ⟨frameInstr_slot _ _, (encode_frameInstr tags _ _).trans (typeOctet_of_classify hft)⟩
  | infoTag =>
    obtain ⟨T, hT, rfl⟩ := decodeInfoTag_ok h
    exact ⟨infoInstr_slot _ _, (encode_infoInstr tags _ _).trans (tagOctet_of_classify hT)⟩

/-- Settles O46: a legal INFO_TAG is injective, so no two types have one key. -/
theorem infoTagSelectsItsType : Obligations.InfoTagSelectsItsType :=
  fun _ g T h => classifyInfoTag_eq_some_iff h g T

/-- Settles O47: each word by computation. -/
theorem specWordsDecode : Obligations.SpecWordsDecode := ⟨rfl, rfl, rfl, rfl, rfl, rfl⟩

/-! ### The host's write of CMD -/

/-- R122: a 3-bit code in the slot of CMD. -/
theorem decode_cmd_setWidth (tags : InfoTags) (c : BitVec 3) : decode tags .cmd (c.setWidth 8) = decodeCmd c := by
  have hlt : (c.setWidth 8).toNat < 8 := by simp only [BitVec.toNat_setWidth]; omega
  have hback : (c.setWidth 8).setWidth 3 = c := by simp
  rw [decode, if_pos hlt, hback]

/-- R32, R122: a command code runs its instruction. -/
theorem hostWriteCmd_of_ok {c : BitVec 3} {i : Instr} (h : decodeCmd c = .ok i) (s : State) :
    hostWriteCmd c s = exec i s := by
  simp only [hostWriteCmd, h]

/-- R124: a reserved code is refused. -/
theorem hostWriteCmd_of_error {c : BitVec 3} {e : DecodeError} (h : decodeCmd c = .error e) (s : State) :
    hostWriteCmd c s = .refused .hostProtocol := by
  simp only [hostWriteCmd, h]

/-- Settles O3: NOP answers the state it is given, which the host's step has taken the action from. -/
theorem nopChangesNothing : Obligations.NopChangesNothing := by
  refine ⟨fun _ => rfl, fun s acts sch hact => ?_⟩
  rw [step_of_hostActs hact]
  exact hostWriteCmd_of_ok (c := 0b000#3) (i := .nop) rfl (hostTaken s acts sch)

/-- Settles O30: the three reserved codes by the decoder of CMD, the other four actions by the host port. -/
theorem meaninglessHostActionsRefused : Obligations.MeaninglessHostActionsRefused := by
  intro s a acts sch hact hmem
  rw [step_of_hostActs hact]
  simp only [List.mem_cons, List.not_mem_nil, or_false] at hmem
  rcases hmem with rfl | rfl | rfl | rfl | rfl | rfl | rfl
  · exact hostWriteCmd_of_error (c := 0b011#3) rfl (hostTaken s acts sch)
  · exact hostWriteCmd_of_error (c := 0b100#3) rfl (hostTaken s acts sch)
  · exact hostWriteCmd_of_error (c := 0b111#3) rfl (hostTaken s acts sch)
  · rfl
  · rfl
  · rfl
  · rfl

/-! ### The step that completes an operand -/

/-- R151: the step in which the RX engine takes an octet in `q` applies the rule for `q`. -/
theorem step_of_rxTakes_byte {s : State} {q : RxState} {b : Byte} {src : List SrcEvent} {sch : List Agent}
    (h : RxTakes s q (.byte b) src sch) :
    step s = rxOctet b (rxTaken s src sch) ∧ (rxTaken s src sch).rx.state = q := by
  obtain ⟨hsch, hsource, hbusy, hq⟩ := h
  refine ⟨?_, hq⟩
  simp only [step, hsch, agentStep, rxStep, withSchedule_rx, hbusy, if_true, withSchedule_source, hsource]
  rfl

/-- R157, R158: the frame type's instruction is the one its TYPE octet decodes to. -/
theorem rxRunFrameType_of_ok {s : State} {i : Instr} (hknown : rxTypeKnown s.rx = true)
    (h : decodeFrameType s.rx.typ = .ok i) : rxRunFrameType s = exec i s := by
  obtain ⟨ft, hft, rfl⟩ := decodeFrameType_ok h
  have hftype : classifyFrameType s.rx.typ = some s.rx.ftype := beq_iff_eq.mp hknown
  cases hft.symm.trans hftype
  rfl

/-- R162, R163: the octet that completes the information field runs the instruction of the tag octet. -/
theorem rxInfoOctet_of_ok {s : State} {b : Byte} {i : Instr} (hcnt : s.rx.cnt.toNat < 254)
    (hlen : s.rx.cnt.toNat + 1 = s.rx.len.toNat)
    (h : decodeInfoTag s.params.infoTags (memRead (memWrite s.rx.buf s.rx.cnt.toNat b) 0) = .ok i) :
    rxInfoOctet b s = exec i (rxStoreInfo b s) := by
  have hend : (rxStoreInfo b s).rx.cnt.toNat = (rxStoreInfo b s).rx.len.toNat := (cnt_succ hcnt).trans hlen
  rw [rxInfoOctet_fits hcnt, rxCheckInfoEnd_of_eq hend]
  exact rxRunInfoType_of_ok h

/-- Settles O36: in each slot the step comes to the rule that runs the instruction decoded. -/
theorem stepRunsDecodedInstruction : Obligations.StepRunsDecodedInstruction := by
  refine ⟨fun s c i acts sch hact h => ?cmd, fun s b i src sch htakes hlast hknown h => ?len1,
    fun s b i src sch htakes hknown h => ?len2, fun s b i src sch htakes hcnt hlen h => ?info⟩
  case cmd =>
    rw [decode_cmd_setWidth] at h
    rw [step_of_hostActs hact]
    exact hostWriteCmd_of_ok h _
  case len1 =>
    obtain ⟨hstep, hq⟩ := step_of_rxTakes_byte htakes
    rw [hstep, rxOctet, hq]
    exact (rxLen1Octet_last hlast).trans (rxRunFrameType_of_ok hknown h)
  case len2 =>
    obtain ⟨hstep, hq⟩ := step_of_rxTakes_byte htakes
    rw [hstep, rxOctet, hq]
    exact rxRunFrameType_of_ok hknown h
  case info =>
    obtain ⟨hstep, hq⟩ := step_of_rxTakes_byte htakes
    rw [hstep, rxOctet, hq]
    exact rxInfoOctet_of_ok (s := rxTaken s src sch) hcnt hlen h

end Sys2Proof.Machine

/-! PROOFS. The decode family: the key of a TYPE octet (`classifyFrameType_eq_some_iff`), the key of a tag octet
(`decodeInfoTag_of_key`), the branches of the octet steps and of the frame types that Laws/Exec.lean does not have, and
from them the command, each `rx_state` and the engine that waits. -/

namespace Sys2Proof.Machine

/-! ### Scheduled engines -/

/-- R84: the scheduled agent moves. -/
theorem step_of_schedule {s : State} {a : Agent} {sch : List Agent} (h : s.schedule = a :: sch) :
    step s = agentStep a (withSchedule s sch) := by
  simp only [step, h]

/-- R151: the RX engine waits for a START or for its source. -/
theorem rxStep_waits {s : State} (h : s.rx.status.phase ≠ .busy ∨ s.source = []) : rxStep s = .next s := by
  rcases rxStep_cases s with ⟨-, hs⟩ | ⟨e, src, hbusy, hsource, -⟩
  · exact hs
  · simp [hbusy, hsource] at h

/-- R207: the TX engine waits for a START or for its sink. -/
theorem txStep_waits {s : State} (h : s.tx.status.phase ≠ .busy ∨ s.sinkAnswers = []) : txStep s = .next s := by
  rcases txStep_cases s with ⟨-, hs⟩ | ⟨r, ans, hbusy, -, hanswers, -⟩
  · exact hs
  · simp [hbusy, hanswers] at h

/-- R151: the RX engine takes its source's answer. -/
theorem rxStep_takes {s : State} {e : SrcEvent} {src : List SrcEvent} (hbusy : s.rx.status.phase = .busy)
    (hsource : s.source = e :: src) : rxStep s = rxEvent e (withSource s src) := by
  simp only [rxStep, hbusy, hsource, if_true]

/-- R151: the step in which the RX engine takes an answer of the source. -/
theorem step_of_rxTakes {s : State} {q : RxState} {e : SrcEvent} {src : List SrcEvent} {sch : List Agent}
    (h : RxTakes s q e src sch) : step s = rxEvent e (rxTaken s src sch) := by
  obtain ⟨hsch, hsource, hbusy, -⟩ := h
  exact (step_of_schedule hsch).trans (rxStep_takes hbusy hsource)

/-- Settles O28: the engine's step answers the state it is given, which the schedule's entry has been taken from. -/
theorem enginesWaitOrAreIdle : Obligations.EnginesWaitOrAreIdle := by
  intro s sch
  constructor
  · intro hsch hwait
    exact (step_of_schedule hsch).trans (rxStep_waits (s := withSchedule s sch) hwait)
  · intro hsch hwait
    exact (step_of_schedule hsch).trans (txStep_waits (s := withSchedule s sch) hwait)

/-- Settles O21: the error's kind goes by `rx_state` for the end of the source, and is the fault's own otherwise. -/
theorem sourceEndOrFaultRaisesIo : Obligations.SourceEndOrFaultRaisesIo := by
  intro s q src sch
  constructor
  · intro htakes
    rw [step_of_rxTakes htakes]
    obtain ⟨-, -, -, rfl⟩ := htakes
    rfl
  · intro k htakes
    exact step_of_rxTakes htakes

/-! ### Commands -/

/-- Settles O4: R150's one test is of PHASE. -/
theorem rxStartBeginsHunt : Obligations.RxStartBeginsHunt :=
  fun _ => ⟨fun hquiet => ⟨memClear, memRead_nil, if_neg hquiet⟩, fun hbusy => if_pos hbusy⟩

/-- Settles O5: R174's one test is of PHASE. -/
theorem rxAbortStopsDecode : Obligations.RxAbortStopsDecode :=
  fun _ => ⟨fun hbusy => if_pos hbusy, fun hquiet => if_neg hquiet⟩

/-! ### Frame types on a complete length -/

/-- Settles O9: R159's one test is of `rx_len`. -/
theorem sabmTakesLengthZero : Obligations.SabmTakesLengthZero :=
  fun _ _ => ⟨fun hzero => if_neg (not_not_intro hzero), fun hlen => if_pos hlen⟩

/-- R160, R173: a UIH length that does not fit. -/
theorem execUih_outside {s : State} (pf : PollFinal) (h : s.rx.len.toNat = 0 ∨ 254 < s.rx.len.toNat) :
    execUih pf s = .next (raise .rx .invalidFrameFormat s) := by
  unfold execUih
  rcases h with hzero | hlong
  · have hlen : s.rx.len = 0 := BitVec.eq_of_toNat_eq hzero
    rw [hlen]
    rfl
  · exact if_pos hlong

/-- Settles O10: a length fits or does not. -/
theorem uihTakesLengths1To254 : Obligations.UihTakesLengths1To254 :=
  fun _ pf => ⟨execUih_fits pf, execUih_outside pf⟩

/-- Settles O11: the four instructions are one rule, which reads no length. -/
theorem otherFrameTypesUnsupported : Obligations.OtherFrameTypesUnsupported := by
  intro s pf i hi
  simp only [List.mem_cons, List.not_mem_nil, or_false] at hi
  rcases hi with rfl | rfl | rfl | rfl
  · rfl
  · rfl
  · rfl
  · rfl

/-! ### HUNT and ADDR -/

/-- An RX engine that is in `q` already. -/
theorem rxGoto_self {s : State} {q : RxState} (h : s.rx.state = q) : rxGoto q s = s := by
  subst h
  rfl

/-- R152: the flag. -/
theorem rxHuntOctet_flag (s : State) :
    rxHuntOctet flag s = .next (withRx s { s.rx with crc := crcInit, state := .addr }) := if_pos rfl

/-- R152: an octet other than the flag changes nothing. -/
theorem rxHuntOctet_other {s : State} {b : Byte} (hq : s.rx.state = .hunt) (hb : b ≠ flag) :
    rxHuntOctet b s = .next s := by
  rw [rxHuntOctet, if_neg hb, rxGoto_self hq]

/-- Settles O20: the octet is the flag or it is not. -/
theorem huntFindsFlag : Obligations.HuntFindsFlag := by
  intro s b src sch htakes
  obtain ⟨hstep, hq⟩ := step_of_rxTakes_byte htakes
  rw [hstep, rxOctet, hq]
  constructor
  · rintro rfl
    exact rxHuntOctet_flag (rxTaken s src sch)
  · intro hb
    exact rxHuntOctet_other hq hb

/-- Settles O22: R155 has no test of the octet. -/
theorem addressOctetTaken : Obligations.AddressOctetTaken := by
  intro s b src sch htakes
  obtain ⟨hstep, hq⟩ := step_of_rxTakes_byte htakes
  rw [hstep, rxOctet, hq]
  rfl

/-! ### TYPE -/

/-- R52: the list of the frame types is complete. -/
theorem mem_frameTypes (ft : FrameType) : ft ∈ frameTypes := by
  cases ft <;> decide

/-- R106: the tag octets tell the frame types apart. -/
theorem frameTypeTag_injective {ft ft' : FrameType} (h : frameTypeTag ft = frameTypeTag ft') : ft = ft' :=
  List.inj_on_of_nodup_map (f := frameTypeTag) (l := frameTypes) (by decide) (mem_frameTypes ft) (mem_frameTypes ft') h

/-- R105, R106: the key selects one frame type. -/
theorem classifyFrameType_eq_some_iff (t : Byte) (ft : FrameType) :
    classifyFrameType t = some ft ↔ frameTypeTag ft = t &&& 0xEF#8 := by
  refine ⟨classifyFrameType_key, fun hkey => ?_⟩
  have hfound : (classifyFrameType t).isSome = true :=
    List.find?_isSome.mpr ⟨ft, mem_frameTypes ft, beq_iff_eq.mpr hkey⟩
  obtain ⟨ft', hft'⟩ := Option.isSome_iff_exists.mp hfound
  rw [hft', frameTypeTag_injective ((classifyFrameType_key hft').trans hkey.symm)]

/-- R107: a key of no row is no frame type. -/
theorem classifyFrameType_eq_none {t : Byte} (h : t &&& 0xEF#8 ∉ frameTypes.map frameTypeTag) :
    classifyFrameType t = none :=
  Option.eq_none_iff_forall_ne_some.mpr fun ft hft =>
    h (List.mem_map.mpr ⟨ft, mem_frameTypes ft, classifyFrameType_key hft⟩)

/-- Settles O23: the six rows are the keys of the frame types in the order of R106. -/
theorem typeOctetClassified : Obligations.TypeOctetClassified := by
  intro s b src sch htakes
  obtain ⟨hstep, hq⟩ := step_of_rxTakes_byte htakes
  rw [hstep, rxOctet, hq]
  constructor
  · intro ft hrow
    have hrow' : (b &&& 0xEF#8, ft) ∈ frameTypes.map fun ft => (frameTypeTag ft, ft) := hrow
    obtain ⟨ft', -, heq⟩ := List.mem_map.mp hrow'
    obtain ⟨hkey, rfl⟩ := Prod.mk.inj heq
    exact rxTypeOctet_known ((classifyFrameType_eq_some_iff b ft').mpr hkey)
  · intro hnone
    exact rxTypeOctet_unknown (classifyFrameType_eq_none hnone)

/-! ### LEN1 and LEN2 -/

/-- Settles O24: the octet's EA bit says whether it completes the length; LEN2 always does. -/
theorem lengthOctetsAssembled : Obligations.LengthOctetsAssembled := by
  intro s b src sch
  refine ⟨fun htakes hlast => ?len1Last, fun htakes hmore => ?len1More, fun htakes => ?len2⟩
  case len1Last =>
    obtain ⟨hstep, hq⟩ := step_of_rxTakes_byte htakes
    rw [hstep, rxOctet, hq]
    exact ⟨frameLen1 b, frameLen1_toNat b, rxLen1Octet_last hlast⟩
  case len1More =>
    obtain ⟨hstep, hq⟩ := step_of_rxTakes_byte htakes
    rw [hstep, rxOctet, hq]
    exact rxLen1Octet_more hmore
  case len2 =>
    obtain ⟨hstep, hq⟩ := step_of_rxTakes_byte htakes
    rw [hstep, rxOctet, hq]
    exact ⟨frameLen2 s.rx.len1 b, frameLen2_toNat s.rx.len1 b, rfl⟩

/-! ### INFO -/

/-- R110, R111: a tag octet whose key is the value of a type is decoded to that type's instruction. -/
theorem decodeInfoTag_of_key {tags : InfoTags} {g : Byte} {T : InfoType} (h : tags.wellFormed = true)
    (hkey : infoTagOf tags T = g &&& 0xFC#8) : decodeInfoTag tags g = .ok (infoInstr T (crOf g)) := by
  simp only [decodeInfoTag, (classifyInfoTag_eq_some_iff h g T).mpr hkey]

/-- R113: a tag octet whose key is no type's value is rejected. -/
theorem decodeInfoTag_of_no_key {tags : InfoTags} {g : Byte} (h : ∀ T, infoTagOf tags T ≠ g &&& 0xFC#8) :
    decodeInfoTag tags g = .error (.unknownInfoTag g) := by
  have hnone : classifyInfoTag tags g = none :=
    Option.eq_none_iff_forall_ne_some.mpr fun T hT => h T (classifyInfoTag_key hT)
  simp only [decodeInfoTag, hnone]

/-- R163: a tag octet that names no type raises InvalidFrameFormat. -/
theorem rxRunInfoType_of_error {s : State} {e : DecodeError}
    (h : decodeInfoTag s.params.infoTags (rxTagOctet s) = .error e) :
    rxRunInfoType s = .next (raise .rx .invalidFrameFormat s) := by
  simp only [rxRunInfoType, h]

/-- R162: an octet that does not complete the information field is stored and counted. -/
theorem rxInfoOctet_of_ne {s : State} {b : Byte} (hq : s.rx.state = .info) (hcnt : s.rx.cnt.toNat < 254)
    (hlen : s.rx.cnt.toNat + 1 ≠ s.rx.len.toNat) : rxInfoOctet b s = .next (rxStoreInfo b s) := by
  have hmore : (rxStoreInfo b s).rx.cnt.toNat ≠ (rxStoreInfo b s).rx.len.toNat := (cnt_succ hcnt).trans_ne hlen
  have hstay : (rxStoreInfo b s).rx.state = .info := hq
  rw [rxInfoOctet_fits hcnt, rxCheckInfoEnd_of_ne hmore, rxGoto_self hstay]

/-- R162, R163: the octet that completes an information field whose tag octet names no type. -/
theorem rxInfoOctet_of_error {s : State} {b : Byte} {e : DecodeError} (hcnt : s.rx.cnt.toNat < 254)
    (hlen : s.rx.cnt.toNat + 1 = s.rx.len.toNat)
    (h : decodeInfoTag s.params.infoTags (memRead (memWrite s.rx.buf s.rx.cnt.toNat b) 0) = .error e) :
    rxInfoOctet b s = .next (raise .rx .invalidFrameFormat (rxStoreInfo b s)) := by
  have hend : (rxStoreInfo b s).rx.cnt.toNat = (rxStoreInfo b s).rx.len.toNat := (cnt_succ hcnt).trans hlen
  rw [rxInfoOctet_fits hcnt, rxCheckInfoEnd_of_eq hend]
  exact rxRunInfoType_of_error h

/-- Settles O25: the field goes on, or is complete and its tag octet names a type, or is complete and names none. -/
theorem infoOctetStoredThenDispatched : Obligations.InfoOctetStoredThenDispatched := by
  intro s b src sch htakes hwf hparams hcnt
  obtain ⟨hstep, hq⟩ := step_of_rxTakes_byte htakes
  rw [hstep, rxOctet, hq]
  refine ⟨memWrite s.rx.buf s.rx.cnt.toNat b, fun i => memRead_memWrite hwf _ i b, fun hlen => ?more,
    fun T hlen hkey => ?known, fun hlen hnone => ?unknown⟩
  case more => exact rxInfoOctet_of_ne hq hcnt hlen
  case known =>
    exact rxInfoOctet_of_ok (s := rxTaken s src sch) hcnt hlen (decodeInfoTag_of_key hparams hkey)
  case unknown =>
    exact rxInfoOctet_of_error (s := rxTaken s src sch) hcnt hlen (decodeInfoTag_of_no_key hnone)

/-! ### FCS and CLOSE -/

/-- R164: the octet that agrees with a CRC register, as a sum. -/
theorem eq_fcsOf_iff (b c : Byte) : b = fcsOf c ↔ b.toNat + c.toNat = 255 := by
  unfold fcsOf
  constructor
  · rintro rfl
    bv_omega
  · intro h
    bv_omega

/-- R164: the FCS octet disagrees. -/
theorem rxFcsOctet_mismatch {s : State} {b : Byte} (h : b ≠ fcsOf s.rx.crc) :
    rxFcsOctet b s = .next (raise .rx .crcMismatch s) := if_pos h

/-- Settles O26: the FCS octet agrees with the CRC register or does not. -/
theorem fcsOctetChecked : Obligations.FcsOctetChecked := by
  intro s b src sch htakes
  obtain ⟨hstep, hq⟩ := step_of_rxTakes_byte htakes
  rw [hstep, rxOctet, hq]
  exact ⟨fun hsum => rxFcsOctet_ok (s := rxTaken s src sch) ((eq_fcsOf_iff b s.rx.crc).mpr hsum),
    fun hsum => rxFcsOctet_mismatch (s := rxTaken s src sch) (mt (eq_fcsOf_iff b s.rx.crc).mp hsum)⟩

/-- R165, R166: the frame of a SABM decode. -/
theorem rxFrame_of_sabm {r : RxEngine} (h : r.ftype = .sabm) : rxFrame r = rxSabmFrame r := if_pos h

/-- R165, R167: the frame of every other decode. -/
theorem rxFrame_of_not_sabm {r : RxEngine} (h : r.ftype ≠ .sabm) : rxFrame r = rxUihFrame r := if_neg h

/-- R165: an octet other than the closing flag. -/
theorem rxCloseOctet_other {s : State} {b : Byte} (h : b ≠ flag) :
    rxCloseOctet b s = .next (raise .rx .invalidFrameFormat s) := if_pos h

/-- Settles O27: the flag completes with the frame of `rx_ftype`, any other octet raises. -/
theorem closeOctetPublishesFrame : Obligations.CloseOctetPublishesFrame := by
  intro s b src sch htakes
  obtain ⟨hstep, hq⟩ := step_of_rxTakes_byte htakes
  rw [hstep, rxOctet, hq]
  refine ⟨?sabm, ?uih, fun hb => rxCloseOctet_other (s := rxTaken s src sch) hb⟩
  case sabm =>
    rintro rfl hft
    refine (rxCloseOctet_flag (rxTaken s src sch)).trans ?_
    rw [rxFrame_of_sabm (r := (rxTaken s src sch).rx) hft]
    rfl
  case uih =>
    rintro rfl hft
    refine (rxCloseOctet_flag (rxTaken s src sch)).trans ?_
    rw [rxFrame_of_not_sabm (r := (rxTaken s src sch).rx) hft]
    rfl

end Sys2Proof.Machine

/-! PROOFS. The frame family: the octets of a frame (`build_sabm`, `build_uih`), what the read rule of an information
type makes of what its write rule gives (`ruleOf_infoWrite`), TX_START, TX_ABORT and the emit steps; then the two whole
transactions, an encode by the number of offers (`run_emits`) and a decode by the octets read (`RxReads`). -/

namespace Sys2Proof.Machine

/-! ### Runs -/

/-- A run begins with its first step. -/
theorem run_succ {s t : State} (h : step s = .next t) (k : Nat) :
    Host.Core.run core (k + 1) s = Host.Core.run core k t := by
  have hcore : core.step s = .next t := h
  simp only [Host.Core.run, hcore]

/-- A run of one step. -/
theorem run_one {s t : State} (h : step s = .next t) : Host.Core.run core 1 s = .next t := run_succ h 0

/-- A run goes on from where its first part ends. -/
theorem run_add {s t : State} {m : Nat} (h : Host.Core.run core m s = .next t) (n : Nat) :
    Host.Core.run core (m + n) s = Host.Core.run core n t := by
  induction m generalizing s with
  | zero =>
    cases h
    rw [Nat.zero_add]
  | succ m ih =>
    rw [Nat.succ_add]
    simp only [Host.Core.run] at h ⊢
    split at h
    · exact ih h
    · cases h
    · cases h

/-! ### Written sequences -/

/-- Sequences are written in turn. -/
theorem memWriteAll_append (m : Memory) (i : Nat) (xs ys : List Byte) :
    memWriteAll m i (xs ++ ys) = memWriteAll (memWriteAll m i xs) (i + xs.length) ys := by
  induction xs generalizing m i with
  | nil => rfl
  | cons x xs ih =>
    rw [List.cons_append, memWriteAll, memWriteAll, ih, List.length_cons, Nat.add_right_comm, Nat.add_assoc]

/-- The octets of a range, the first one first. -/
theorem memReadRange_cons (m : Memory) (i n : Nat) :
    memReadRange m i (n + 1) = memRead m i :: memReadRange m (i + 1) n := by
  simp only [memReadRange, List.range_succ_eq_map, List.map_cons, List.map_map, Nat.add_zero]
  congr 1
  exact List.map_congr_left fun j _ => by rw [Function.comp_apply, Nat.add_right_comm, Nat.add_assoc]

/-- A written sequence is read back. -/
theorem memReadRange_memWriteAll {m : Memory} (hm : Memory.wf m = true) (i : Nat) (s : List Byte) :
    memReadRange (memWriteAll m i s) i s.length = s := by
  refine List.ext_getElem (memReadRange_length _ _ _) fun j hj hjs => ?_
  simp only [memReadRange, List.getElem_map, List.getElem_range]
  rw [memRead_memWriteAll hm, if_pos (by omega), Nat.add_sub_cancel_left, List.getD_eq_getElem]

/-- A tag octet and its payload are read back from where they are written. -/
theorem memWriteAll_field {m : Memory} (hm : Memory.wf m = true) (g : Byte) (P : List Byte) :
    memRead (memWriteAll m 0 (g :: P)) 0 = g ∧ memReadRange (memWriteAll m 0 (g :: P)) 1 P.length = P := by
  have hback := memReadRange_memWriteAll hm 0 (g :: P)
  rw [List.length_cons, memReadRange_cons] at hback
  exact List.cons.inj hback

/-! ### The octets of a frame -/

/-- R205, R299: the LEN octets of a frame with `n` information octets. -/
def lenOctets (n : Nat) : List Byte :=
  if n ≤ 127 then [BitVec.ofNat 8 (n * 2 + 1)] else [BitVec.ofNat 8 (n / 128 * 2), BitVec.ofNat 8 (n % 128 * 2 + 1)]

/-- R299, R300: the EA writer gives the LEN octets. -/
theorem eaWrite_lenOctets {n : Nat} (h : n ≤ 16383) : eaWrite n = .ok (lenOctets n) := eaWrite_frame h

/-- R204: the covered octets of a SABM frame in its envelope. -/
theorem build_sabm (tags : InfoTags) (id : BitVec 6) (pf : PollFinal) :
    build tags (.sabm id pf) =
      .ok (envelope ([addrOctet id .command, typeOctet .sabm pf] ++ lenOctets 0)) := by
  simp only [build, sabmCovered, eaWrite_lenOctets (Nat.zero_le 16383)]
  rfl

/-- R205, R206: the covered octets of a UIH frame. -/
def uihOctets (tags : InfoTags) (id : BitVec 6) (cr : CommandResponse) (pf : PollFinal) (info : InformationField) :
    List Byte :=
  [addrOctet id cr, typeOctet .uih pf] ++ lenOctets (1 + (infoWrite tags info.body).length)
    ++ [tagOctet tags (informationType info.body) info.cr] ++ infoWrite tags info.body

/-- R205: the covered octets of a valid UIH frame in its envelope. -/
theorem build_uih (tags : InfoTags) (id : BitVec 6) (cr : CommandResponse) (pf : PollFinal) {info : InformationField}
    (h : info.body.wellFormed = true) :
    build tags (.uih id cr pf info) = .ok (envelope (uihOctets tags id cr pf info)) := by
  have hlen : 1 + (infoWrite tags info.body).length ≤ 16383 := by
    have := infoWrite_length_le tags h
    omega
  simp only [build, uihCovered, eaWrite_lenOctets hlen]
  rfl

/-- R206: the octets of an information field. -/
def fieldOctets (tags : InfoTags) (info : InformationField) : List Byte :=
  tagOctet tags (informationType info.body) info.cr :: infoWrite tags info.body

/-- R205: the covered octets of a UIH frame end with its information field, whose length LEN gives. -/
theorem uihOctets_eq (tags : InfoTags) (id : BitVec 6) (cr : CommandResponse) (pf : PollFinal)
    (info : InformationField) :
    uihOctets tags id cr pf info =
      [addrOctet id cr, typeOctet .uih pf] ++ lenOctets (fieldOctets tags info).length ++ fieldOctets tags info := by
  rw [uihOctets, fieldOctets, List.append_assoc, List.length_cons, Nat.add_comm]
  rfl

/-- R60: the information field of a valid descriptor fits `rx_buf`. -/
theorem fieldOctets_length_le (tags : InfoTags) {info : InformationField} (h : info.body.wellFormed = true) :
    (fieldOctets tags info).length ≤ 254 := Nat.succ_le_succ (infoWrite_length_le tags h)

/-- R203, R106: the TYPE octet of a SABM frame. -/
theorem typeOctet_sabm (pf : PollFinal) : typeOctet .sabm pf = if pf = .poll then 0x3F#8 else 0x2F#8 := by
  cases pf <;> rfl

/-- R203, R106: the TYPE octet of a UIH frame. -/
theorem typeOctet_uih (pf : PollFinal) : typeOctet .uih pf = if pf = .poll then 0xFF#8 else 0xEF#8 := by
  cases pf <;> rfl

/-- R50: the C/R bit on write. -/
theorem crBit_eq (cr : CommandResponse) : crBit cr = if cr = .command then 0x02#8 else 0x00#8 := by
  cases cr <;> rfl

/-- Settles O53: the address and the TYPE octet as numbers, in `build_sabm`. -/
theorem sabmFrameOctets : Obligations.SabmFrameOctets := by
  rintro tags id pf a t rfl rfl
  rw [build_sabm, addrOctet_ofNat, typeOctet_sabm]
  rfl

/-- Settles O54: the address, TYPE and tag octets as numbers, in `build_uih`; the length by the two forms of LEN. -/
theorem uihFrameOctets : Obligations.UihFrameOctets := by
  rintro tags id cr pf info n a t g L hvalid rfl rfl rfl rfl rfl
  have hP : (infoWrite tags info.body).length ≤ 253 := infoWrite_length_le tags hvalid
  refine ⟨by omega, envelope (uihOctets tags id cr pf info), build_uih tags id cr pf hvalid, ?octets, ?length⟩
  case octets =>
    rw [uihOctets, addrOctet_ofNat, typeOctet_uih, tagOctet, crBit_eq]
    rfl
  case length =>
    simp only [envelope, uihOctets, lenOctets, List.length_append, List.length_cons, List.length_nil]
    split
    · simp only [List.length_cons, List.length_nil]
      omega
    · simp only [List.length_cons, List.length_nil]
      omega

/-! ### Information fields -/

/-- R110, R206: the two fields of a tag octet. -/
theorem tagOctet_fields {tags : InfoTags} (h : tags.wellFormed = true) (T : InfoType) (cr : CommandResponse) :
    classifyInfoTag tags (tagOctet tags T cr) = some T ∧ crOf (tagOctet tags T cr) = cr := by
  obtain ⟨hkey, hcr⟩ := or_crBit_fields (infoTagOf_low h T) cr
  exact ⟨(classifyInfoTag_eq_some_iff h _ T).mpr hkey.symm, hcr⟩

/-- R231, R213: the read rule of a body's type gives the body back, but for the EA bits that its write rule forces. -/
theorem ruleOf_infoWrite {tags : InfoTags} (htags : tags.wellFormed = true) {body : InfoBody}
    (hbody : body.wellFormed = true) :
    ∃ rule, ruleOf tags (informationType body) = some rule ∧ rule (infoWrite tags body) = .ok (normBody body) := by
  cases body with
  | pn => exact ⟨readPn, rfl, rfl⟩
  | cld => exact ⟨readCld, rfl, rfl⟩
  | fcOff => exact ⟨readFcOff, rfl, rfl⟩
  | fcOn => exact ⟨readFcOn, rfl, rfl⟩
  | msc d dcr c brk =>
    obtain ⟨hd, hcr⟩ := dlciOctet_fields d dcr
    refine ⟨readMsc, rfl, ?_⟩
    cases brk with
    | none => simp only [infoWrite, writeMsc, readMsc, hd, hcr, normBody, forceEa, Option.map_none]
    | some k => simp only [infoWrite, writeMsc, readMsc, hd, hcr, normBody, forceEa, Option.map_some]
  | nsc ct ccr =>
    obtain ⟨hct, hcr⟩ := tagOctet_fields htags ct ccr
    exact ⟨readNsc tags, rfl, by simp only [infoWrite, writeNsc, readNsc, hct, hcr, normBody]⟩
  | rpn raw =>
    obtain ⟨hpos, -⟩ := of_decide_eq_true hbody
    exact ⟨readRpn, rfl, if_neg (Nat.not_lt.mpr hpos)⟩
  | rls d dcr st =>
    obtain ⟨hd, hcr⟩ := dlciOctet_fields d dcr
    exact ⟨readRls, rfl, by simp only [infoWrite, writeRls, readRls, hd, hcr, normBody]⟩
  | snc raw =>
    obtain ⟨hpos, -⟩ := of_decide_eq_true hbody
    exact ⟨readSnc, rfl, if_neg (Nat.not_lt.mpr hpos)⟩

/-- R230, R231: an information type's instruction on a field that holds what the write rule of `body` gives. -/
theorem exec_infoInstr_of_infoWrite {s : State} (htags : s.params.infoTags.wellFormed = true) {body : InfoBody}
    (hbody : body.wellFormed = true) (cr : CommandResponse)
    (hlen : s.rx.len.toNat = 1 + (infoWrite s.params.infoTags body).length)
    (hfield : memReadRange s.rx.buf 1 (infoWrite s.params.infoTags body).length = infoWrite s.params.infoTags body) :
    exec (infoInstr (informationType body) cr) s =
      .next (withRx s { s.rx with info := ⟨cr, normBody body⟩, state := .fcs }) := by
  obtain ⟨rule, hrule, hread⟩ := ruleOf_infoWrite htags hbody
  have hP := infoWrite_length_le s.params.infoTags hbody
  have hpayload : rxPayload s = some (infoWrite s.params.infoTags body) := by
    rw [rxPayload_some (by omega), show s.rx.len.toNat - 1 = (infoWrite s.params.infoTags body).length by omega, hfield]
  rw [exec_infoInstr]
  simp only [hrule]
  rw [readInfo_of_payload hpayload, hread]
  rfl

/-! ### TX_START and TX_ABORT -/

/-- R200: TX_START of a valid descriptor. -/
theorem execTxStart_of_build {s : State} {d : Frame} {octets : List Byte} (hquiet : s.tx.status.phase ≠ .busy)
    (hdesc : s.tx.desc = some d) (hvalid : d.wellFormed = true) (hbuild : build s.params.infoTags d = .ok octets) :
    execTxStart s = .next (txLatch octets s) := by
  simp only [execTxStart, if_neg hquiet, hdesc, if_pos hvalid, hbuild]

/-- R201: TX_START of a descriptor that was never written. -/
theorem execTxStart_of_no_desc {s : State} (hquiet : s.tx.status.phase ≠ .busy) (hdesc : s.tx.desc = none) :
    execTxStart s = .refused .badDescriptor := by
  simp only [execTxStart, if_neg hquiet, hdesc]

/-- R201: TX_START of an invalid descriptor. -/
theorem execTxStart_of_invalid {s : State} {d : Frame} (hquiet : s.tx.status.phase ≠ .busy)
    (hdesc : s.tx.desc = some d) (hinvalid : d.wellFormed = false) : execTxStart s = .refused .badDescriptor := by
  simp only [execTxStart, if_neg hquiet, hdesc, hinvalid, Bool.false_eq_true, if_false]

/-- Settles O6: the frame that `build` gives, read back from where it is latched. -/
theorem txStartLatchesFrame : Obligations.TxStartLatchesFrame := by
  intro s d hquiet hdesc hvalid hwf
  obtain ⟨octets, hbuild, hmin, hmax⟩ := build_ok s.params.infoTags hvalid
  refine ⟨octets, memWriteAll s.tx.buf 0 octets, hbuild, hmin, hmax, fun i hi => ?inside, fun i hi => ?outside,
    execTxStart_of_build hquiet hdesc hvalid hbuild⟩
  case inside => rw [memRead_memWriteAll hwf, if_pos (by omega), Nat.sub_zero]
  case outside => rw [memRead_memWriteAll hwf, if_neg (by omega)]

/-- Settles O7: R200's tests in their order. -/
theorem txStartRefusals : Obligations.TxStartRefusals :=
  fun _ => ⟨fun hbusy => if_pos hbusy, execTxStart_of_no_desc, fun _ => execTxStart_of_invalid⟩

/-- Settles O8: R210's one test is of PHASE. -/
theorem txAbortStopsEncode : Obligations.TxAbortStopsEncode :=
  fun _ => ⟨fun hbusy => if_pos hbusy, fun hquiet => if_neg hquiet⟩

/-! ### Emit steps -/

/-- R207: the step in which the sink answers an offer. -/
theorem step_of_txTakes {s : State} {r : SinkAnswer} {ans : List SinkAnswer} {sch : List Agent}
    (h : TxTakes s r ans sch) : step s = txEmit r { s with sinkAnswers := ans, schedule := sch } := by
  obtain ⟨hsch, hans, hbusy, hmore⟩ := h
  rw [step_of_schedule hsch]
  simp only [agentStep, txStep, withSchedule_tx, withSchedule_sinkAnswers, hbusy, hmore, and_self, if_true, hans]
  rfl

/-- The count of accepted octets goes up without wrapping, and is the length exactly when the last octet is accepted. -/
theorem idx_succ_eq_iff {i n : BitVec 9} (h : i.toNat < 261) : i + 1 = n ↔ i.toNat + 1 = n.toNat := by
  bv_omega

/-- R207, R209: the sink accepts an octet; the last one completes the transaction. -/
theorem step_of_accepted {s : State} {ans : List SinkAnswer} {sch : List Agent} (h : TxTakes s .ok ans sch)
    (hidx : s.tx.idx.toNat < 261) :
    step s = .next { s with
      sinkAnswers := ans, schedule := sch, sinkOctets := s.sinkOctets ++ [memRead s.tx.buf s.tx.idx.toNat]
      tx := { s.tx with
        idx := s.tx.idx + 1
        status := if s.tx.idx.toNat + 1 = s.tx.len.toNat then statusComplete s.tx.status else s.tx.status } } := by
  rw [step_of_txTakes h]
  refine (if_pos hidx).trans ?_
  simp only [txAccept_eq, idx_succ_eq_iff hidx]

/-- Settles O29: the answer is an acceptance before the end, the acceptance of the last octet, a fault, or none. -/
theorem emitStepFollowsAnswer : Obligations.EmitStepFollowsAnswer := by
  refine ⟨fun s r ans sch htakes hidx => ⟨?more, ?last, ?fault⟩, fun s sch hsch hbusy _ hnone => ?waits⟩
  case more =>
    rintro rfl hmore
    rw [step_of_accepted htakes hidx, if_neg hmore]
  case last =>
    rintro rfl hlast
    rw [step_of_accepted htakes hidx, if_pos hlast]
    rfl
  case fault =>
    rintro k rfl
    rw [step_of_txTakes htakes]
    exact if_pos hidx
  case waits => exact (step_of_schedule hsch).trans (txStep_waits (s := withSchedule s sch) (.inr hnone))

/-! ### A whole encode -/

/-- R207, R209: one accepted offer for each octet left: the sink receives them in order, and TX is DONE. -/
theorem run_emits {s : State} {k : Nat} {ans : List SinkAnswer} {sch : List Agent} (hbusy : s.tx.status.phase = .busy)
    (hleft : s.tx.idx.toNat + (k + 1) = s.tx.len.toNat) (hmax : s.tx.len.toNat ≤ 261)
    (hans : s.sinkAnswers = List.replicate (k + 1) .ok ++ ans)
    (hsch : s.schedule = List.replicate (k + 1) .tx ++ sch) :
    Host.Core.run core (k + 1) s = .next { s with
      sinkAnswers := ans, schedule := sch
      sinkOctets := s.sinkOctets ++ memReadRange s.tx.buf s.tx.idx.toNat (k + 1)
      tx := { s.tx with idx := s.tx.len, status := statusComplete s.tx.status } } := by
  have hidx : s.tx.idx.toNat < 261 := by omega
  induction k generalizing s with
  | zero =>
    have hend : s.tx.idx + 1 = s.tx.len := (idx_succ_eq_iff hidx).mpr hleft
    rw [run_one (step_of_accepted ⟨hsch, hans, hbusy, by omega⟩ hidx), if_pos hleft, hend]
    simp [memReadRange]
  | succ k ih =>
    have hsucc : (s.tx.idx + 1).toNat = s.tx.idx.toNat + 1 := ((idx_succ_eq_iff hidx).mp rfl).symm
    rw [run_succ (step_of_accepted ⟨hsch, hans, hbusy, by omega⟩ hidx), if_neg (by omega)]
    refine Eq.trans (ih hbusy ?_ hmax rfl rfl ?_) ?_
    · show (s.tx.idx + 1).toNat + (k + 1) = s.tx.len.toNat
      omega
    · show (s.tx.idx + 1).toNat < 261
      omega
    · simp only [hsucc, memReadRange_cons _ _ (k + 1), List.append_assoc, List.singleton_append]

/-- Settles O58: TX_START latches the frame, and the accepted offers emit what stands in `tx_buf`. -/
theorem startedFrameIsEmittedWhole : Obligations.StartedFrameIsEmittedWhole := by
  intro s d octets acts ans sch hquiet hdesc hvalid hwf hbuild hacts hans hsch
  obtain ⟨k, hk, hmax⟩ : ∃ k, octets.length = k + 1 ∧ octets.length ≤ 261 := by
    obtain ⟨octets', hbuild', hmin, hmax⟩ := build_ok s.params.infoTags hvalid
    cases hbuild.symm.trans hbuild'
    exact ⟨octets.length - 1, by omega, hmax⟩
  have hlatch : step s = .next (txLatch octets (hostTaken s acts (List.replicate octets.length .tx ++ sch))) := by
    rw [step_of_hostActs ⟨hsch, hacts⟩]
    exact execTxStart_of_build hquiet hdesc hvalid hbuild
  have hlen : (BitVec.ofNat 9 octets.length).toNat = octets.length := Nat.mod_eq_of_lt (by omega)
  have hemit := run_emits (s := txLatch octets (hostTaken s acts (List.replicate octets.length .tx ++ sch)))
    (k := k) (ans := ans) (sch := sch) rfl (by rw [← hk]; exact (Nat.zero_add _).trans hlen.symm)
    (hlen.trans_le hmax) (by rw [← hk]; exact hans) (by rw [← hk]; rfl)
  rw [← hk, ← run_succ hlatch] at hemit
  exact ⟨_, hemit, rfl, rfl, congrArg _ (memReadRange_memWriteAll hwf 0 octets), rfl, rfl, rfl, rfl, rfl⟩

/-! ### Reading octets -/

/-- Under the parameters `p`, an RX engine `r` that takes the octets `octets` becomes `r'`, one octet a step, and
nothing else changes but the source and the schedule. -/
def RxReads (p : Params) (r : RxEngine) (octets : List Byte) (r' : RxEngine) : Prop :=
  ∀ (s : State) (src : List SrcEvent) (sch : List Agent), s.params = p → s.rx = r →
    s.source = srcOctets octets ++ src → s.schedule = List.replicate octets.length .rx ++ sch →
    Host.Core.run core octets.length s = .next (withRx (rxTaken s src sch) r')

/-- No octet, no change. -/
theorem RxReads.nil (p : Params) (r : RxEngine) : RxReads p r [] r := by
  rintro s src sch - rfl hsource hsch
  cases hsource
  cases hsch
  rfl

/-- Octets in two parts. -/
theorem RxReads.append {p : Params} {r r' r'' : RxEngine} {xs ys : List Byte} (hxs : RxReads p r xs r')
    (hys : RxReads p r' ys r'') : RxReads p r (xs ++ ys) r'' := by
  intro s src sch hp hr hsource hsch
  have hfirst := hxs s (srcOctets ys ++ src) (List.replicate ys.length .rx ++ sch) hp hr
    (by rw [hsource, srcOctets, List.map_append, List.append_assoc]; rfl)
    (by rw [hsch, List.length_append, List.replicate_add, List.append_assoc])
  rw [List.length_append, run_add hfirst]
  exact hys _ src sch hp rfl rfl rfl

/-- R151: one octet, by the rule for the engine's `rx_state`. -/
theorem RxReads.octet {p : Params} {r r' : RxEngine} {b : Byte} (hbusy : r.status.phase = .busy)
    (hrule : ∀ s : State, s.params = p → s.rx = r → rxOctet b s = .next (withRx s r')) : RxReads p r [b] r' := by
  rintro s src sch hp rfl hsource hsch
  obtain ⟨hstep, -⟩ := step_of_rxTakes_byte (q := s.rx.state) ⟨hsch, hsource, hbusy, rfl⟩
  exact run_one (hstep.trans (hrule _ hp rfl))

/-- One octet, and the octets after it. -/
theorem RxReads.cons {p : Params} {r r' r'' : RxEngine} {b : Byte} {bs : List Byte} (hb : RxReads p r [b] r')
    (hbs : RxReads p r' bs r'') : RxReads p r (b :: bs) r'' := hb.append hbs

/-! ### The octets of a decode -/

/-- R152: the opening flag. -/
theorem rxReads_openingFlag (p : Params) {r : RxEngine} (hbusy : r.status.phase = .busy) (hq : r.state = .hunt) :
    RxReads p r [flag] { r with crc := crcInit, state := .addr } := by
  refine .octet hbusy ?_
  rintro s - rfl
  rw [rxOctet, hq]
  exact rxHuntOctet_flag s

/-- R155: the address. -/
theorem rxReads_addr (p : Params) {r : RxEngine} (hbusy : r.status.phase = .busy) (hq : r.state = .addr) (a : Byte) :
    RxReads p r [a] { r with addr := a, crc := crcUpdate r.crc a, state := .type } := by
  refine .octet hbusy ?_
  rintro s - rfl
  rw [rxOctet, hq]
  rfl

/-- R156: a TYPE octet as written. -/
theorem rxReads_type (p : Params) {r : RxEngine} (hbusy : r.status.phase = .busy) (hq : r.state = .type)
    (ft : FrameType) (pf : PollFinal) :
    RxReads p r [typeOctet ft pf] { r with
      typ := typeOctet ft pf, ftype := ft, crc := crcUpdate r.crc (typeOctet ft pf), state := .len1 } := by
  refine .octet hbusy ?_
  rintro s - rfl
  rw [rxOctet, hq]
  obtain ⟨hclass, -⟩ := typeOctet_fields ft pf
  exact rxTypeOctet_known hclass

/-- R299: one LEN octet has EA = 1 and its length value. -/
theorem lenOctet_last {n : Nat} (h : n ≤ 127) :
    (BitVec.ofNat 8 (n * 2 + 1)).getLsbD 0 = true ∧ frameLen1 (BitVec.ofNat 8 (n * 2 + 1)) = BitVec.ofNat 14 n := by
  rw [getLsbD_zero_iff, ← BitVec.toNat_inj, frameLen1_toNat]
  simp only [BitVec.toNat_ofNat]
  omega

/-- R299, R304: the first of two LEN octets has EA = 0, and the two have their length value. -/
theorem lenOctets_two {n : Nat} (h : n ≤ 16383) :
    (BitVec.ofNat 8 (n / 128 * 2)).getLsbD 0 = false ∧
      frameLen2 (BitVec.ofNat 8 (n / 128 * 2)) (BitVec.ofNat 8 (n % 128 * 2 + 1)) = BitVec.ofNat 14 n := by
  rw [← Bool.not_eq_true, getLsbD_zero_iff, ← BitVec.toNat_inj, frameLen2_toNat]
  simp only [BitVec.toNat_ofNat]
  omega

/-- R157, R158: the LEN octets of `n`, and the frame type's rule on the complete length; `l` and `q` are what `rx_len1`
and `rx_state` hold by then. -/
theorem rxReads_len {p : Params} {r : RxEngine} (hbusy : r.status.phase = .busy) (hq : r.state = .len1) {n : Nat}
    (hn : n ≤ 16383) :
    ∃ l q, ∀ r' : RxEngine,
      (∀ s : State, s.rx = { r with
          crc := crcFold r.crc (lenOctets n), len1 := l, len := BitVec.ofNat 14 n, state := q } →
        rxRunFrameType s = .next (withRx s r')) → RxReads p r (lenOctets n) r' := by
  by_cases hshort : n ≤ 127
  · obtain ⟨hlast, hlen⟩ := lenOctet_last hshort
    refine ⟨r.len1, .len1, fun r' hrun => ?_⟩
    rw [lenOctets, if_pos hshort] at hrun ⊢
    refine .octet hbusy ?_
    rintro s - rfl
    rw [rxOctet, hq]
    refine (rxLen1Octet_last hlast).trans (hrun _ ?_)
    rw [hlen, ← hq]
    rfl
  · obtain ⟨hmore, hlen⟩ := lenOctets_two hn
    refine ⟨BitVec.ofNat 8 (n / 128 * 2), .len2, fun r' hrun => ?_⟩
    rw [lenOctets, if_neg hshort] at hrun ⊢
    refine .cons (r' := { r with
      crc := crcUpdate r.crc (BitVec.ofNat 8 (n / 128 * 2)), len1 := BitVec.ofNat 8 (n / 128 * 2), state := .len2 })
      (.octet hbusy ?first) (.octet hbusy ?second)
    case first =>
      rintro s - rfl
      rw [rxOctet, hq]
      exact rxLen1Octet_more hmore
    case second =>
      intro s _ hr
      rw [rxOctet, hr]
      refine hrun (withRx s _) ?_
      rw [hr, hlen]
      rfl

/-- R162: the engine after it stored the information octets `bs`. -/
def rxStored (r : RxEngine) (bs : List Byte) : RxEngine :=
  { r with
    buf := memWriteAll r.buf r.cnt.toNat bs, crc := crcFold r.crc bs, cnt := r.cnt + BitVec.ofNat 8 bs.length }

/-- R162: what an INFO step stores. -/
theorem rxStoreInfo_eq (b : Byte) (s : State) : rxStoreInfo b s = withRx s (rxStored s.rx [b]) := rfl

theorem rxStored_nil (r : RxEngine) : rxStored r [] = r := by
  have hcnt : r.cnt + BitVec.ofNat 8 ([] : List Byte).length = r.cnt := BitVec.add_zero r.cnt
  rw [rxStored, hcnt]
  rfl

/-- The count of stored octets goes up without wrapping. -/
theorem rxStored_cnt {r : RxEngine} {bs : List Byte} (h : r.cnt.toNat + bs.length < 256) :
    (rxStored r bs).cnt.toNat = r.cnt.toNat + bs.length := by
  show (r.cnt + BitVec.ofNat 8 bs.length).toNat = _
  rw [BitVec.toNat_add, BitVec.toNat_ofNat]
  omega

/-- Information octets are stored in turn. -/
theorem rxStored_append {r : RxEngine} {xs ys : List Byte} (h : r.cnt.toNat + xs.length < 256) :
    rxStored r (xs ++ ys) = rxStored (rxStored r xs) ys := by
  rw [rxStored, rxStored, rxStored_cnt h, memWriteAll_append, crcFold_append, List.length_append, BitVec.ofNat_add,
    ← BitVec.add_assoc]
  rfl

/-- R151: INFO on an octet. -/
theorem rxOctet_of_info {s : State} (hq : s.rx.state = .info) (b : Byte) : rxOctet b s = rxInfoOctet b s := by
  rw [rxOctet, hq]

/-- R162: information octets that do not complete the field. -/
theorem rxReads_infoStored (p : Params) {r : RxEngine} (hbusy : r.status.phase = .busy) (hq : r.state = .info)
    {bs : List Byte} (hlen : r.cnt.toNat + bs.length < r.len.toNat) (hmax : r.len.toNat ≤ 254) :
    RxReads p r bs (rxStored r bs) := by
  induction bs generalizing r with
  | nil =>
    rw [rxStored_nil]
    exact .nil p r
  | cons b bs ih =>
    rw [List.length_cons] at hlen
    have hone : RxReads p r [b] (rxStored r [b]) := by
      refine .octet hbusy ?_
      rintro s - rfl
      rw [rxOctet_of_info hq]
      exact rxInfoOctet_of_ne hq (by omega) (by omega)
    have hcnt : (rxStored r [b]).cnt.toNat = r.cnt.toNat + 1 := rxStored_cnt (by rw [List.length_singleton]; omega)
    have hrest : RxReads p (rxStored r [b]) bs (rxStored (rxStored r [b]) bs) :=
      ih hbusy hq (by show _ < r.len.toNat; omega) hmax
    rw [← List.singleton_append, rxStored_append (by rw [List.length_singleton]; omega)]
    exact hone.append hrest

/-- R162, R163: a whole information field: its last octet runs the instruction of its tag octet. -/
theorem rxReads_field {p : Params} {r r' : RxEngine} {field : List Byte} {i : Instr}
    (hbusy : r.status.phase = .busy) (hq : r.state = .info) (hcnt : r.cnt = 0) (hpos : field ≠ [])
    (hlen : r.len.toNat = field.length) (hmax : field.length ≤ 254)
    (hdecode : decodeInfoTag p.infoTags (memRead (rxStored r field).buf 0) = .ok i)
    (hexec : ∀ s : State, s.params = p → s.rx = rxStored r field → exec i s = .next (withRx s r')) :
    RxReads p r field r' := by
  obtain ⟨init, last, rfl⟩ : ∃ init last, field = init ++ [last] :=
    ⟨_, _, (List.dropLast_append_getLast hpos).symm⟩
  rw [List.length_append, List.length_singleton] at hlen hmax
  have hzero : r.cnt.toNat = 0 := by
    rw [hcnt]
    rfl
  have hinit : (rxStored r init).cnt.toNat = init.length := by
    rw [rxStored_cnt (by omega), hzero, Nat.zero_add]
  rw [rxStored_append (by omega)] at hdecode hexec
  refine (rxReads_infoStored p hbusy hq (by omega) (by omega)).append (.octet hbusy fun s hp hr => ?_)
  have hstored : rxStoreInfo last s = withRx s (rxStored (rxStored r init) [last]) := by rw [rxStoreInfo_eq, hr]
  rw [rxOctet_of_info (by rw [hr]; exact hq), rxInfoOctet_of_ok (i := i) ?fits ?complete ?decoded, hstored]
  case fits => rw [hr]; omega
  case complete => rw [hr, hinit]; exact hlen.symm
  case decoded => rw [hp, hr]; exact hdecode
  exact hexec (withRx s _) hp rfl

/-- R163, R213: the information field of a body as written is read back. -/
theorem rxReads_info {p : Params} {r : RxEngine} {info : InformationField} (hp : p.wellFormed = true)
    (hbody : info.body.wellFormed = true) (hbusy : r.status.phase = .busy) (hq : r.state = .info) (hcnt : r.cnt = 0)
    (hwf : Memory.wf r.buf = true) (hlen : r.len.toNat = (fieldOctets p.infoTags info).length) :
    RxReads p r (fieldOctets p.infoTags info)
      { rxStored r (fieldOctets p.infoTags info) with info := ⟨info.cr, normBody info.body⟩, state := .fcs } := by
  have hbuf : (rxStored r (fieldOctets p.infoTags info)).buf = memWriteAll r.buf 0 (fieldOctets p.infoTags info) := by
    simp only [rxStored, hcnt]
    rfl
  obtain ⟨htag, hpayload⟩ := memWriteAll_field hwf (tagOctet p.infoTags (informationType info.body) info.cr)
    (infoWrite p.infoTags info.body)
  refine rxReads_field hbusy hq hcnt (List.cons_ne_nil _ _) hlen (fieldOctets_length_le _ hbody)
    (i := infoInstr (informationType info.body) info.cr) ?decoded ?read
  case decoded =>
    rw [hbuf, fieldOctets, htag]
    exact decodeInfoTag_tagOctet hp _ _
  case read =>
    rintro s rfl hr
    rw [exec_infoInstr_of_infoWrite hp hbody, hr]
    · rw [hr]
      exact hlen.trans (Nat.add_comm _ 1)
    · rw [hr, hbuf]
      exact hpayload

/-- R164 to R168: the FCS octet and the closing flag. -/
theorem rxReads_end (p : Params) {r : RxEngine} (hbusy : r.status.phase = .busy) (hq : r.state = .fcs) :
    RxReads p r [fcsOf r.crc, flag]
      { r with state := .close, status := statusComplete r.status, result := some (rxFrame r) } := by
  refine .cons (r' := { r with state := .close }) (.octet hbusy ?fcs) (.octet hbusy ?close)
  case fcs =>
    rintro s - rfl
    rw [rxOctet, hq]
    exact rxFcsOctet_ok rfl
  case close =>
    intro s _ hr
    rw [rxOctet, hr]
    refine (rxCloseOctet_flag s).trans ?_
    rw [rxComplete, hr]
    rfl

/-- R165, R204, R205: a frame whose covered octets lead from ADDR to FCS is complete. -/
theorem rxReads_envelope {p : Params} {r r' : RxEngine} {cov : List Byte} (hbusy : r.status.phase = .busy)
    (hq : r.state = .hunt) (hcov : RxReads p { r with crc := crcInit, state := .addr } cov r')
    (hbusy' : r'.status.phase = .busy) (hq' : r'.state = .fcs) (hcrc : r'.crc = crc8 cov) :
    RxReads p r (envelope cov)
      { r' with state := .close, status := statusComplete r'.status, result := some (rxFrame r') } := by
  have hfcs : fcsOf r'.crc = fcs cov := congrArg fcsOf hcrc
  have hend := rxReads_end p hbusy' hq'
  rw [hfcs] at hend
  exact .cons (rxReads_openingFlag p hbusy hq) (hcov.append hend)

/-! ### A whole decode -/

/-- R155 to R158: the engine `r` on the complete length `n` of a frame; `l` and `q` are what `rx_len1` and `rx_state`
hold by then. -/
def rxHeader (r : RxEngine) (a : Byte) (ft : FrameType) (pf : PollFinal) (n : Nat) (l : Byte) (q : RxState) :
    RxEngine :=
  { r with
    addr := a, typ := typeOctet ft pf, ftype := ft, crc := crc8 ([a, typeOctet ft pf] ++ lenOctets n)
    len1 := l, len := BitVec.ofNat 14 n, state := q }

/-- R155 to R158: the address, the TYPE octet and the LEN octets as written, and the frame type's instruction. -/
theorem rxReads_header {p : Params} {r : RxEngine} (hbusy : r.status.phase = .busy) (a : Byte) (ft : FrameType)
    (pf : PollFinal) {n : Nat} (hn : n ≤ 16383) :
    ∃ l q, ∀ r' : RxEngine,
      (∀ s : State, s.rx = rxHeader r a ft pf n l q → exec (frameInstr ft pf) s = .next (withRx s r')) →
      RxReads p { r with crc := crcInit, state := .addr } ([a, typeOctet ft pf] ++ lenOctets n) r' := by
  have haddr := rxReads_addr p (r := { r with crc := crcInit, state := .addr }) hbusy rfl a
  have htype := rxReads_type p
    (r := { r with addr := a, crc := crcUpdate crcInit a, state := .type }) hbusy rfl ft pf
  obtain ⟨l, q, hlen⟩ := rxReads_len (p := p) (r := { r with
    addr := a, typ := typeOctet ft pf, ftype := ft, crc := crc8 [a, typeOctet ft pf], state := .len1 }) hbusy rfl hn
  obtain ⟨-, hpf⟩ := typeOctet_fields ft pf
  refine ⟨l, q, fun r' hexec => .cons haddr (.cons htype (hlen r' fun s hr => ?_))⟩
  rw [rxRunFrameType, hr, hpf]
  exact hexec s hr

/-- R166: the result of a SABM decode from octets as written. -/
theorem rxFrame_eq_sabm {r : RxEngine} {id : BitVec 6} {cr : CommandResponse} {pf : PollFinal}
    (haddr : r.addr = addrOctet id cr) (htyp : r.typ = typeOctet .sabm pf) (hft : r.ftype = .sabm) :
    rxFrame r = .sabm id pf := by
  obtain ⟨hid, -⟩ := addrOctet_fields id cr
  obtain ⟨-, hpf⟩ := typeOctet_fields .sabm pf
  rw [rxFrame_of_sabm hft, rxSabmFrame, haddr, htyp, hid, hpf]

/-- R167: the result of a UIH decode from octets as written. -/
theorem rxFrame_eq_uih {r : RxEngine} {id : BitVec 6} {cr : CommandResponse} {pf : PollFinal}
    (haddr : r.addr = addrOctet id cr) (htyp : r.typ = typeOctet .uih pf) (hft : r.ftype = .uih) :
    rxFrame r = .uih id cr pf r.info := by
  obtain ⟨hid, hcr⟩ := addrOctet_fields id cr
  obtain ⟨-, hpf⟩ := typeOctet_fields .uih pf
  rw [rxFrame_of_not_sabm (by rw [hft]; decide), rxUihFrame, haddr, htyp, hid, hcr, hpf]

/-- R159, R213: a SABM frame as written is decoded to its descriptor. -/
theorem rxReads_sabm (p : Params) {r : RxEngine} (hbusy : r.status.phase = .busy) (hq : r.state = .hunt)
    (id : BitVec 6) (pf : PollFinal) :
    ∃ r', RxReads p r (envelope ([addrOctet id .command, typeOctet .sabm pf] ++ lenOctets 0)) r' ∧
      r'.status = statusComplete r.status ∧ r'.result = some (.sabm id pf) := by
  obtain ⟨l, q, hheader⟩ := rxReads_header (p := p) hbusy (addrOctet id .command) .sabm pf (Nat.zero_le 16383)
  have hcov := hheader { rxHeader r (addrOctet id .command) .sabm pf 0 l q with state := .fcs } fun s hr => by
    have hlen : s.rx.len = 0 := by
      rw [hr]
      rfl
    rw [← hr]
    exact if_neg (not_not_intro hlen)
  exact ⟨_, rxReads_envelope hbusy hq hcov hbusy rfl rfl, rfl, congrArg some (rxFrame_eq_sabm rfl rfl rfl)⟩

/-- R160, R213: a UIH frame as written is decoded to its descriptor, but for the EA bits that MSC forces on write. -/
theorem rxReads_uih {p : Params} (hp : p.wellFormed = true) {r : RxEngine} (hbusy : r.status.phase = .busy)
    (hq : r.state = .hunt) (hwf : Memory.wf r.buf = true) (id : BitVec 6) (cr : CommandResponse) (pf : PollFinal)
    {info : InformationField} (hbody : info.body.wellFormed = true) :
    ∃ r', RxReads p r (envelope (uihOctets p.infoTags id cr pf info)) r' ∧
      r'.status = statusComplete r.status ∧ r'.result = some (.uih id cr pf ⟨info.cr, normBody info.body⟩) := by
  have hmax := fieldOctets_length_le p.infoTags hbody
  have hpos : 0 < (fieldOctets p.infoTags info).length := Nat.succ_pos _
  have hn : (BitVec.ofNat 14 (fieldOctets p.infoTags info).length).toNat = (fieldOctets p.infoTags info).length :=
    Nat.mod_eq_of_lt (by omega)
  obtain ⟨l, q, hheader⟩ := rxReads_header (p := p) hbusy (addrOctet id cr) .uih pf
    (n := (fieldOctets p.infoTags info).length) (by omega)
  have hfits := hheader
    { rxHeader r (addrOctet id cr) .uih pf (fieldOctets p.infoTags info).length l q with cnt := 0, state := .info }
    fun s hr => by
      have hlen : s.rx.len.toNat = (fieldOctets p.infoTags info).length := by
        rw [hr]
        exact hn
      rw [← hr]
      exact execUih_fits pf (by omega)
  have hcov := hfits.append (rxReads_info hp hbody hbusy rfl rfl hwf hn)
  rw [uihOctets_eq]
  exact ⟨_, rxReads_envelope hbusy hq hcov hbusy rfl (crcFold_append _ _ _).symm, rfl,
    congrArg some (rxFrame_eq_uih rfl rfl rfl)⟩

/-- Settles O57: a SABM and a UIH frame as written, each read octet by octet. -/
theorem decodeOfEncodedFrame : Obligations.DecodeOfEncodedFrame := by
  intro s f octets src sch hparams hvalid hbuild hbusy hq hwf hsource hsch
  obtain ⟨r', hreads, hstatus, hresult⟩ : ∃ r', RxReads s.params s.rx octets r' ∧
      r'.status = statusComplete s.rx.status ∧ r'.result = some (normFrame f) := by
    cases f with
    | sabm id pf =>
      cases (build_sabm s.params.infoTags id pf).symm.trans hbuild
      exact rxReads_sabm s.params hbusy hq id pf
    | uih id cr pf info =>
      cases (build_uih s.params.infoTags id cr pf hvalid).symm.trans hbuild
      exact rxReads_uih hparams hbusy hq hwf id cr pf hvalid
  exact ⟨_, hreads s src sch rfl rfl hsource hsch, congrArg Status.phase hstatus, congrArg Status.err hstatus, hresult,
    rfl, rfl, rfl, rfl⟩

end Sys2Proof.Machine

/-! PROOFS. The information-field family: the payload that `rx_buf` holds (`rxPayload_eq_some`), what a read rule's
answer comes to (`readInfo_accepts`, `readInfo_raises`), the shape each read rule wants, and from them the nine
implemented types, the two that are rejected, the write rules, and Control's fields. -/

namespace Sys2Proof.Machine

/-! ### The payload and the answer of a read rule -/

/-- R230: the payload in `rx_buf`, by the octets it holds. -/
theorem rxPayload_eq_some {s : State} {P : List Byte} (hlen : s.rx.len.toNat = P.length + 1) (hmax : P.length ≤ 253)
    (hP : memReadRange s.rx.buf 1 P.length = P) : rxPayload s = some P := by
  rw [rxPayload_some (by omega), hlen, Nat.add_sub_cancel, hP]

/-- R230: a field that lies in `rx_buf` has one payload octet fewer than its length. -/
theorem rxPayload_of_fits {s : State} (h : 1 ≤ s.rx.len.toNat ∧ s.rx.len.toNat ≤ 254) :
    ∃ P, rxPayload s = some P ∧ P.length + 1 = s.rx.len.toNat := by
  refine ⟨_, rxPayload_some h, ?_⟩
  rw [memReadRange_length]
  omega

/-- R163: a payload that its read rule accepts. -/
theorem readInfo_accepts {s : State} {P : List Byte} {rule : List Byte → Except CmuxError InfoBody} {body : InfoBody}
    (hP : rxPayload s = some P) (cr : CommandResponse) (h : rule P = .ok body) :
    readInfo cr rule s = .next (withRx s { s.rx with info := ⟨cr, body⟩, state := .fcs }) := by
  rw [readInfo_of_payload hP, h]
  rfl

/-- R163: a payload that its read rule rejects. -/
theorem readInfo_raises {s : State} {P : List Byte} {rule : List Byte → Except CmuxError InfoBody} {e : CmuxError}
    (hP : rxPayload s = some P) (cr : CommandResponse) (h : rule P = .error e) :
    readInfo cr rule s = .next (raise .rx e s) := by
  rw [readInfo_of_payload hP, h]
  rfl

/-- R230: a field of a length whose payloads the read rule rejects, whatever their octets. -/
theorem readInfo_raises_of_length {s : State} {rule : List Byte → Except CmuxError InfoBody} {e : CmuxError}
    (hfits : 1 ≤ s.rx.len.toNat ∧ s.rx.len.toNat ≤ 254) (cr : CommandResponse)
    (h : ∀ P : List Byte, P.length + 1 = s.rx.len.toNat → rule P = .error e) :
    readInfo cr rule s = .next (raise .rx e s) := by
  obtain ⟨P, hP, hlen⟩ := rxPayload_of_fits hfits
  exact readInfo_raises hP cr (h P hlen)

/-! ### PN, CLD, FCoff and FCon -/

/-- R232, R234, R236, R238: what the four rules that want an empty payload share. -/
theorem readInfo_emptyOnly {rule : List Byte → Except CmuxError InfoBody} {body : InfoBody}
    (hrule : ∀ P, rule P = if P.length ≠ 0 then .error .invalidInformationField else .ok body) (s : State)
    (cr : CommandResponse) :
    (s.rx.len.toNat = 1 →
      readInfo cr rule s = .next (withRx s { s.rx with info := ⟨cr, body⟩, state := .fcs })) ∧
    (2 ≤ s.rx.len.toNat ∧ s.rx.len.toNat ≤ 254 →
      readInfo cr rule s = .next (raise .rx .invalidInformationField s)) := by
  constructor
  · intro hlen
    exact readInfo_accepts (rxPayload_eq_some (P := []) hlen (Nat.zero_le _) rfl) cr (hrule [])
  · rintro ⟨hmin, hmax⟩
    refine readInfo_raises_of_length ⟨by omega, hmax⟩ cr fun P hP => ?_
    rw [hrule, if_pos (by omega)]

/-- Settles O12: the four rules differ in the body only. -/
theorem emptyPayloadTypesRead : Obligations.EmptyPayloadTypesRead := by
  intro s cr p hp
  simp only [List.mem_cons, List.not_mem_nil, or_false] at hp
  rcases hp with rfl | rfl | rfl | rfl
  · exact readInfo_emptyOnly (rule := readPn) (fun _ => rfl) s cr
  · exact readInfo_emptyOnly (rule := readCld) (fun _ => rfl) s cr
  · exact readInfo_emptyOnly (rule := readFcOff) (fun _ => rfl) s cr
  · exact readInfo_emptyOnly (rule := readFcOn) (fun _ => rfl) s cr

/-! ### RPN and SNC -/

/-- A range's octets, one by one. -/
theorem memReadRange_eq_of_getD {m : Memory} {i : Nat} {P : List Byte}
    (h : ∀ j, j < P.length → P.getD j 0 = memRead m (i + j)) : memReadRange m i P.length = P := by
  refine List.ext_getElem (memReadRange_length m i P.length) fun j _ hj => ?_
  rw [← List.getD_eq_getElem P 0 hj, h j hj]
  simp only [memReadRange, List.getElem_map, List.getElem_range]

/-- R244, R248: what the two rules that keep their octets share. -/
theorem readInfo_verbatim {rule : List Byte → Except CmuxError InfoBody} {body : List Byte → InfoBody}
    (hrule : ∀ P, rule P = if P.length < 1 then .error .invalidInformationField else .ok (body P)) (s : State)
    (cr : CommandResponse) :
    (∀ raw : List Byte, 2 ≤ s.rx.len.toNat ∧ s.rx.len.toNat ≤ 254 → raw.length + 1 = s.rx.len.toNat →
      (∀ i, i < raw.length → raw.getD i 0 = memRead s.rx.buf (1 + i)) →
      readInfo cr rule s = .next (withRx s { s.rx with info := ⟨cr, body raw⟩, state := .fcs })) ∧
    (s.rx.len.toNat = 1 → readInfo cr rule s = .next (raise .rx .invalidInformationField s)) := by
  constructor
  · rintro raw ⟨hmin, hmax⟩ hlen hoctets
    have hP : rxPayload s = some raw := rxPayload_eq_some hlen.symm (by omega) (memReadRange_eq_of_getD hoctets)
    refine readInfo_accepts hP cr ?_
    rw [hrule, if_neg (by omega)]
  · intro hlen
    exact readInfo_raises (rxPayload_eq_some (P := []) hlen (Nat.zero_le _) rfl) cr (hrule [])

/-- Settles O15: the two rules differ in the body only. -/
theorem rpnSncKeepOctets : Obligations.RpnSncKeepOctets := by
  intro s cr p hp
  simp only [List.mem_cons, List.not_mem_nil, or_false] at hp
  rcases hp with rfl | rfl
  · exact readInfo_verbatim (rule := readRpn) (fun _ => rfl) s cr
  · exact readInfo_verbatim (rule := readSnc) (fun _ => rfl) s cr

/-! ### MSC and RLS -/

/-- R240: a payload that is not of two or three octets. -/
theorem readMsc_of_length {P : List Byte} (h2 : P.length ≠ 2) (h3 : P.length ≠ 3) :
    readMsc P = .error .invalidInformationField := by
  unfold readMsc
  split
  · exact absurd rfl h2
  · exact absurd rfl h3
  · rfl

/-- R246: a payload that is not of two octets. -/
theorem readRls_of_length {P : List Byte} (h2 : P.length ≠ 2) : readRls P = .error .invalidInformationField := by
  unfold readRls
  split
  · exact absurd rfl h2
  · rfl

/-- R230: the payload of a field of three octets. -/
theorem rxPayload_two {s : State} (h : s.rx.len.toNat = 3) :
    rxPayload s = some [memRead s.rx.buf 1, memRead s.rx.buf 2] := rxPayload_eq_some h (by simp) rfl

/-- R230: the payload of a field of four octets. -/
theorem rxPayload_three {s : State} (h : s.rx.len.toNat = 4) :
    rxPayload s = some [memRead s.rx.buf 1, memRead s.rx.buf 2, memRead s.rx.buf 3] :=
  rxPayload_eq_some h (by simp) rfl

/-- Settles O13: the payload has two octets, three, or another number of them. -/
theorem mscReadsControlAndBreak : Obligations.MscReadsControlAndBreak := by
  intro s cr
  refine ⟨fun hlen => ?control, fun hlen => ?controlAndBreak, fun ⟨hmin, hmax, h3, h4⟩ => ?otherLength⟩
  case control => exact readInfo_accepts (rule := readMsc) (rxPayload_two hlen) cr rfl
  case controlAndBreak => exact readInfo_accepts (rule := readMsc) (rxPayload_three hlen) cr rfl
  case otherLength =>
    exact readInfo_raises_of_length ⟨hmin, hmax⟩ cr fun P hP => readMsc_of_length (by omega) (by omega)

/-- Settles O16: the payload has two octets, or another number of them. -/
theorem rlsReadsLineStatus : Obligations.RlsReadsLineStatus := by
  intro s cr
  refine ⟨fun hlen => ?status, fun ⟨hmin, hmax, h3⟩ => ?otherLength⟩
  case status => exact readInfo_accepts (rule := readRls) (rxPayload_two hlen) cr rfl
  case otherLength => exact readInfo_raises_of_length ⟨hmin, hmax⟩ cr fun P hP => readRls_of_length (by omega)

/-! ### NSC -/

/-- R113: a key that is no type's value. -/
theorem classifyInfoTag_eq_none {tags : InfoTags} {g : Byte} (h : ∀ T, infoTagOf tags T ≠ g &&& 0xFC#8) :
    classifyInfoTag tags g = none :=
  Option.eq_none_iff_forall_ne_some.mpr fun T hT => h T (classifyInfoTag_key hT)

/-- R242: an octet that names a type. -/
theorem readNsc_of_key {tags : InfoTags} {p0 : Byte} {ct : InfoType} (h : tags.wellFormed = true)
    (hkey : infoTagOf tags ct = p0 &&& 0xFC#8) : readNsc tags [p0] = .ok (.nsc ct (crOf p0)) := by
  simp only [readNsc, (classifyInfoTag_eq_some_iff h p0 ct).mpr hkey]

/-- R242: an octet that names no type. -/
theorem readNsc_of_no_key {tags : InfoTags} {p0 : Byte} (h : ∀ ct, infoTagOf tags ct ≠ p0 &&& 0xFC#8) :
    readNsc tags [p0] = .error .invalidFrameFormat := by
  simp only [readNsc, classifyInfoTag_eq_none h]

/-- R242: a payload that is not of one octet. -/
theorem readNsc_of_length {tags : InfoTags} {P : List Byte} (h1 : P.length ≠ 1) :
    readNsc tags P = .error .invalidInformationField := by
  unfold readNsc
  split
  · exact absurd rfl h1
  · rfl

/-- R230: the payload of a field of two octets. -/
theorem rxPayload_one {s : State} (h : s.rx.len.toNat = 2) : rxPayload s = some [memRead s.rx.buf 1] :=
  rxPayload_eq_some h (by simp) rfl

/-- Settles O14: the one octet names a type or names none, or the payload has another number of octets. -/
theorem nscReadsCommandType : Obligations.NscReadsCommandType := by
  intro s cr hparams
  refine ⟨fun ct hlen hkey => ?named, fun hlen hnone => ?unnamed, fun ⟨hmin, hmax, h2⟩ => ?otherLength⟩
  case named => exact readInfo_accepts (rxPayload_one hlen) cr (readNsc_of_key hparams hkey)
  case unnamed => exact readInfo_raises (rxPayload_one hlen) cr (readNsc_of_no_key hnone)
  case otherLength => exact readInfo_raises_of_length ⟨hmin, hmax⟩ cr fun P hP => readNsc_of_length (by omega)

/-! ### PSC and Test, and a length that no buffer holds -/

/-- Settles O17: the two instructions are one rule, which reads no payload. -/
theorem pscTestUnsupported : Obligations.PscTestUnsupported := by
  intro s cr i hi
  simp only [List.mem_cons, List.not_mem_nil, or_false] at hi
  rcases hi with rfl | rfl
  · rfl
  · rfl

/-- Settles O18: without a payload no read rule is reached. -/
theorem infoLengthOutsideBufferFaults : Obligations.InfoLengthOutsideBufferFaults := by
  intro s cr hlen i hi
  have hnone : rxPayload s = none := rxPayload_none (by omega)
  have hread (rule : List Byte → Except CmuxError InfoBody) : readInfo cr rule s = .fault .rxInfoLength :=
    readInfo_of_no_payload hnone cr rule
  simp only [List.mem_cons, List.not_mem_nil, or_false] at hi
  rcases hi with rfl | rfl | rfl | rfl | rfl | rfl | rfl | rfl | rfl <;> exact hread _

/-! ### The write rules -/

/-- R241, R247: a DLCI octet as a number. -/
theorem dlciOctet_ofNat (d : BitVec 6) (cr : CommandResponse) :
    dlciOctet d cr = BitVec.ofNat 8 (d.toNat * 4) ||| if cr = .command then 0x02#8 else 0x00#8 := by
  have hshift : d.setWidth 8 <<< 2 = BitVec.ofNat 8 (d.toNat * 4) := by
    apply BitVec.eq_of_toNat_eq
    simp [Nat.shiftLeft_eq]
  rw [dlciOctet, hshift, crBit_eq]

/-- Settles O55: each write rule, with the DLCI octet and the C/R bit as numbers. -/
theorem infoWriteOctets : Obligations.InfoWriteOctets := by
  rintro tags d cr c k ct raw p0 b1 rfl rfl
  rw [← dlciOctet_ofNat, ← crBit_eq]
  exact ⟨rfl, rfl, rfl, rfl, rfl, rfl, rfl, rfl, rfl, rfl⟩

/-- R231: `wire_len` counts the octets that the write rule gives. -/
theorem infoWrite_length (tags : InfoTags) (body : InfoBody) : (infoWrite tags body).length = wireLen body := by
  cases body with
  | msc d cr c brk => cases brk <;> rfl
  | _ => rfl

/-- Settles O19: the read rule of the body's type on the octets of its write rule, which `wire_len` counts. -/
theorem infoReadAcceptsInfoWrite : Obligations.InfoReadAcceptsInfoWrite := by
  intro s cr body hparams hbody
  rw [← infoWrite_length s.params.infoTags body]
  exact ⟨rfl, exec_infoInstr_of_infoWrite hparams hbody cr⟩

/-! ### Control -/

/-- R252: a bit of an octet whose field at `pos` was set. -/
theorem getLsbD_withField (pos width v : Nat) (c : Byte) {i : Nat} (hi : i < 8) :
    (withField pos width v c).getLsbD i
      = if pos ≤ i ∧ i < pos + width then v.testBit (i - pos) else c.getLsbD i := by
  simp only [withField, BitVec.getLsbD_or, BitVec.getLsbD_and, BitVec.getLsbD_not, BitVec.getLsbD_shiftLeft,
    BitVec.getLsbD_ofNat, Nat.testBit_two_pow_sub_one, Nat.testBit_mod_two_pow]
  by_cases hpos : pos ≤ i
  · have hwidth : i - pos < width ↔ i < pos + width := by omega
    have hsub : i - pos < 8 := by omega
    by_cases hin : i < pos + width
    · simp [hi, hpos, Nat.not_lt.mpr hpos, hsub, hwidth, hin]
    · simp [hi, hpos, Nat.not_lt.mpr hpos, hwidth, hin]
  · have hlt : i < pos := Nat.not_le.mp hpos
    simp [hi, hpos, hlt]

/-- R54: the fields of a Control octet make up the octet. -/
theorem control_eq_fields (c : Byte) :
    c = BitVec.ofNat 8 ((controlEa c).toNat + 2 * (controlFc c).toNat + 4 * (controlRtc c).toNat
      + 8 * (controlRtr c).toNat + 16 * (controlReserved c).toNat + 64 * (controlIc c).toNat
      + 128 * (controlDv c).toNat) := by
  have hc : c.toNat < 256 := c.isLt
  apply BitVec.eq_of_toNat_eq
  simp only [controlEa, controlFc, controlRtc, controlRtr, controlReserved, controlIc, controlDv, BitVec.getLsbD,
    Nat.toNat_testBit, BitVec.extractLsb'_toNat, Nat.shiftRight_eq_div_pow, BitVec.toNat_ofNat]
  omega

/-- Settles O56: the seven setters are `withField` at seven places. -/
theorem controlFieldsReadAndWrite : Obligations.ControlFieldsReadAndWrite := by
  refine ⟨fun v c p hp i hi => ?_, control_eq_fields⟩
  simp only [List.mem_cons, List.not_mem_nil, or_false] at hp
  rcases hp with rfl | rfl | rfl | rfl | rfl | rfl | rfl <;> exact getLsbD_withField _ _ v c hi

end Sys2Proof.Machine

/-! PROOFS. The primitives' family: a round of the CRC loses no bit, so `crc_update` is injective in `c ^ b` and the CRC
of a sequence is injective in each octet; then the EA reader on the octets that the EA writer gives. -/

namespace Sys2Proof.Machine

/-! ### The CRC -/

/-- R293: a round shifts out bit 0 and adds the polynomial when that bit was set. -/
theorem crcRound_eq (c : Byte) : crcRound c = c >>> 1 ^^^ if c.getLsbD 0 then crcPoly else 0 := by
  unfold crcRound
  split
  · rfl
  · exact BitVec.xor_zero.symm

/-- R291, R293: the polynomial has bit 7, so the bit shifted out of bit 0 comes back as bit 7. -/
theorem crcRound_bit7 (c : Byte) : (crcRound c).getLsbD 7 = c.getLsbD 0 := by
  rw [crcRound_eq, BitVec.getLsbD_xor, BitVec.getLsbD_ushiftRight, BitVec.getLsbD_of_ge c (1 + 7) le_rfl,
    Bool.false_xor]
  cases c.getLsbD 0 <;> rfl

/-- An octet is determined by its bit 0 and its upper bits. -/
theorem byte_eq_of_bit0_of_shift {x y : Byte} (h0 : x.getLsbD 0 = y.getLsbD 0) (h : x >>> 1 = y >>> 1) : x = y := by
  refine BitVec.eq_of_getLsbD_eq fun i _ => ?_
  cases i with
  | zero => exact h0
  | succ i =>
    have hbit := congrArg (·.getLsbD i) h
    simpa only [BitVec.getLsbD_ushiftRight, Nat.add_comm 1 i] using hbit

/-- R293: a round loses no bit. -/
theorem crcRound_injective : Function.Injective crcRound := by
  intro x y h
  have h0 : x.getLsbD 0 = y.getLsbD 0 := by rw [← crcRound_bit7, h, crcRound_bit7]
  rw [crcRound_eq, crcRound_eq, h0, BitVec.xor_left_inj] at h
  exact byte_eq_of_bit0_of_shift h0 h

theorem crcRounds_injective (n : Nat) : Function.Injective (crcRounds n) := by
  induction n with
  | zero => exact Function.injective_id
  | succ n ih => exact ih.comp crcRound_injective

/-- R293, R294: `crc_update` is injective in `c ^ b`. -/
theorem crcUpdate_eq_iff {c b c' b' : Byte} : crcUpdate c b = crcUpdate c' b' ↔ c ^^^ b = c' ^^^ b' :=
  (crcRounds_injective 8).eq_iff

/-- Settles O48: both halves are the injectivity of `crc_update` in `c ^ b`. -/
theorem crcTableIsBijection : Obligations.CrcTableIsBijection := by
  constructor
  · intro c b
    rw [crcUpdate_eq_iff, BitVec.zero_xor]
  · intro x y h
    rwa [crcUpdate_eq_iff, BitVec.zero_xor, BitVec.zero_xor] at h

/-- R295: the FCS of a register is its complement. -/
theorem fcsOf_eq_not (c : Byte) : fcsOf c = ~~~c := BitVec.allOnes_sub_eq_not c

/-- R296: a register and its own FCS octet leave the residue 0xCF, the table's entry at 0xFF. -/
theorem crcUpdate_fcsOf (c : Byte) : crcUpdate c (fcsOf c) = 0xCF#8 := by
  have hentry : crcUpdate 0x00#8 0xFF#8 = 0xCF#8 := by decide
  rw [← hentry, crcUpdate_eq_iff, fcsOf_eq_not, ← BitVec.not_xor_right, BitVec.xor_self]
  rfl

/-- Settles O49: the FCS octet leaves the residue, and by injectivity no other octet does. -/
theorem fcsCheckIsResidueCheck : Obligations.FcsCheckIsResidueCheck := by
  intro c b
  rw [← crcUpdate_fcsOf c, crcUpdate_eq_iff, BitVec.xor_right_inj]
  rfl

/-- R295: the CRC of the same octets is injective in the register it starts from. -/
theorem crcFold_inj {c c' : Byte} (s : List Byte) : crcFold c s = crcFold c' s ↔ c = c' := by
  induction s generalizing c c' with
  | nil => rfl
  | cons x xs ih => exact ih.trans (crcUpdate_eq_iff.trans (BitVec.xor_left_inj x))

/-- R295: another octet in one place gives the same CRC only when it is the same octet. -/
theorem crcFold_set_eq_iff {c b : Byte} {s : List Byte} {i : Nat} (hi : i < s.length) :
    crcFold c (s.set i b) = crcFold c s ↔ b = s[i] := by
  induction s generalizing c i with
  | nil => exact absurd hi (Nat.not_lt_zero i)
  | cons x xs ih =>
    cases i with
    | zero => exact (crcFold_inj xs).trans (crcUpdate_eq_iff.trans (BitVec.xor_right_inj c))
    | succ i => exact ih (Nat.lt_of_succ_lt_succ hi)

/-- R295: the FCS is injective in the CRC register. -/
theorem fcsOf_inj {c c' : Byte} : fcsOf c = fcsOf c' ↔ c = c' := by
  rw [fcsOf_eq_not, fcsOf_eq_not, BitVec.not_inj]

/-- An octet with one of its bits flipped is another octet. -/
theorem xor_bit_ne_self (b : Byte) {j : Nat} (hj : j < 8) : b ^^^ 0x01#8 <<< j ≠ b := by
  intro h
  have hbit := congrArg (·.getLsbD j) h
  simp [hj] at hbit

/-- Settles O50: the octet with a flipped bit is another octet, so the CRC differs, and with it the FCS. -/
theorem singleBitFlipChangesFcs : Obligations.SingleBitFlipChangesFcs := by
  intro s i j hi hj h
  rw [fcs, fcs, fcsOf_inj, crc8, crc8, crcFold_set_eq_iff hi, List.getD_eq_getElem s 0 hi] at h
  exact xor_bit_ne_self s[i] hj h

/-! ### The EA codec -/

/-- R301: an octet with EA = 1 ends the number. -/
theorem eaReadFrom_last {p : Params} {fuel acc : Nat} {b : Byte} {src : List SrcEvent} (h : b.getLsbD 0 = true) :
    eaReadFrom p (fuel + 1) acc (.byte b :: src) = (.value (acc * 128 + b.toNat / 2), src) := by
  rw [eaReadFrom, if_pos h, BitVec.toNat_ushiftRight, Nat.shiftRight_eq_div_pow, pow_one]

/-- R301: after an octet with EA = 0 the reader goes on. -/
theorem eaReadFrom_more {p : Params} {fuel acc : Nat} {b : Byte} {src : List SrcEvent} (h : b.getLsbD 0 = false) :
    eaReadFrom p (fuel + 1) acc (.byte b :: src) = eaReadFrom p fuel (acc * 128 + b.toNat / 2) src := by
  rw [eaReadFrom, if_neg (ne_true_of_eq_false h), BitVec.toNat_ushiftRight, Nat.shiftRight_eq_div_pow, pow_one]

/-- Settles O52: the writer's one test is of `n`, and four octets with EA = 0 use up the reader's four groups. -/
theorem eaCodecRefusals : Obligations.EaCodecRefusals := by
  constructor
  · intro n hn
    exact if_neg (Nat.not_lt.mpr hn)
  · intro p a b c d src ha hb hc hd
    rw [eaRead, eaReadMax, eaReadFrom_more ha, eaReadFrom_more hb, eaReadFrom_more hc, eaReadFrom_more hd, eaReadFrom]

/-- R299: the octets of the `m` groups of `n`. -/
def eaOctets (n m : Nat) : List Byte := (List.range m).map (eaOctet n m)

/-- R299: a group as a number, and the EA bit of its octet. -/
theorem eaOctet_fields (n m j : Nat) :
    (eaOctet n m j).toNat / 2 = n / 2 ^ (7 * (m - 1 - j)) % 128 ∧ (eaOctet n m j).getLsbD 0 = decide (j = m - 1) := by
  have hgroup : n / 2 ^ (7 * (m - 1 - j)) % 128 < 128 := Nat.mod_lt _ (by decide)
  rw [Bool.eq_iff_iff, getLsbD_zero_iff, decide_eq_true_iff, eaOctet, BitVec.toNat_ofNat]
  generalize n / 2 ^ (7 * (m - 1 - j)) % 128 = g at hgroup ⊢
  split <;> omega

/-- R299: the octets of `n` after the first are those of its lower groups. -/
theorem eaOctets_cons (n m : Nat) : eaOctets n (m + 2) = eaOctet n (m + 2) 0 :: eaOctets n (m + 1) := by
  have hlower (j : Nat) : eaOctet n (m + 2) (j + 1) = eaOctet n (m + 1) j := by
    simp [eaOctet]
  rw [eaOctets, List.range_succ_eq_map, List.map_cons, List.map_map]
  exact congrArg _ (List.map_congr_left fun j _ => hlower j)

/-- R299, R301: the groups read so far with the next one. -/
theorem eaGroup_accumulate (n m : Nat) : n / 2 ^ (7 * (m + 1)) * 128 + n / 2 ^ (7 * m) % 128 = n / 2 ^ (7 * m) := by
  rw [Nat.mul_add, pow_add, ← Nat.div_div_eq_div_mul]
  exact Nat.div_add_mod' _ 128

/-- R299, R301: the reader that holds the upper groups of `n` reads `n` from the octets of the `m + 1` lower ones. -/
theorem eaReadFrom_eaOctets (p : Params) (n : Nat) (src : List SrcEvent) {m fuel : Nat} (hfuel : m < fuel) :
    eaReadFrom p fuel (n / 2 ^ (7 * (m + 1))) (srcOctets (eaOctets n (m + 1)) ++ src) = (.value n, src) := by
  induction m generalizing fuel with
  | zero =>
    obtain ⟨fuel, rfl⟩ := Nat.exists_eq_add_one.mpr hfuel
    obtain ⟨hgroup, hlast⟩ := eaOctet_fields n 1 0
    refine (eaReadFrom_last (hlast.trans (decide_eq_true rfl))).trans ?_
    rw [hgroup, eaGroup_accumulate]
    simp
  | succ m ih =>
    obtain ⟨fuel, rfl⟩ := Nat.exists_eq_add_one.mpr (Nat.zero_lt_of_lt hfuel)
    obtain ⟨hgroup, hmore⟩ := eaOctet_fields n (m + 2) 0
    rw [eaOctets_cons]
    refine (eaReadFrom_more (hmore.trans (decide_eq_false (by omega)))).trans ?_
    rw [hgroup, show m + 2 - 1 - 0 = m + 1 from rfl, eaGroup_accumulate]
    exact ih (Nat.lt_of_succ_lt_succ hfuel)

/-- R299: the groups of `n` hold `n`, and are 1 to 4. -/
theorem eaGroups_spec {n : Nat} (h : n < 2 ^ 28) :
    ∃ m, eaGroups n = m + 1 ∧ m < 4 ∧ n < 2 ^ (7 * (m + 1)) := by
  unfold eaGroups
  split
  · exact ⟨0, rfl, by decide, ‹_›⟩
  · split
    · exact ⟨1, rfl, by decide, ‹_›⟩
    · split
      · exact ⟨2, rfl, by decide, ‹_›⟩
      · exact ⟨3, rfl, by decide, h⟩

/-- R305: `ea_read` on the groups of `n` gives `n` and leaves the rest of the source. -/
theorem eaRead_eaOctets (p : Params) {n : Nat} (src : List SrcEvent) (h : n < 2 ^ 28) :
    eaRead p (srcOctets (eaOctets n (eaGroups n)) ++ src) = (.value n, src) := by
  obtain ⟨m, hgroups, hm, hn⟩ := eaGroups_spec h
  have hread := eaReadFrom_eaOctets p n src hm
  rwa [Nat.div_eq_of_lt hn, ← hgroups] at hread

/-- R299, R305: the groups of a number of up to 16383 are the LEN octets of the frame path. -/
theorem eaOctets_lenOctets {n : Nat} (h : n ≤ 16383) : eaOctets n (eaGroups n) = lenOctets n :=
  Except.ok.inj ((eaWrite_ok (by omega)).symm.trans (eaWrite_lenOctets h))

/-- A 14-bit length holds a number of up to 16383. -/
theorem toNat_ofNat_length {n : Nat} (h : n ≤ 16383) : (BitVec.ofNat 14 n).toNat = n :=
  Nat.mod_eq_of_lt (by omega)

/-- Settles O51: the reader takes the groups back in; up to 16383 the octets are those of LEN. -/
theorem eaReadInvertsEaWrite : Obligations.EaReadInvertsEaWrite := by
  intro p n src h
  refine ⟨_, eaWrite_ok h, eaRead_eaOctets p src h, fun hshort => ?_, fun ⟨hlong, hmax⟩ => ?_⟩
  · obtain ⟨hlast, hlen⟩ := lenOctet_last hshort
    refine ⟨_, ?_, hlast, by rw [hlen, toNat_ofNat_length (by omega)]⟩
    exact (eaOctets_lenOctets (by omega)).trans (if_pos hshort)
  · obtain ⟨hmore, hlen⟩ := lenOctets_two hmax
    refine ⟨_, _, ?_, hmore, by rw [hlen, toNat_ofNat_length hmax]⟩
    exact (eaOctets_lenOctets hmax).trans (if_neg (by omega))

end Sys2Proof.Machine

/-! PROOFS. The exceptions' family: what `raise` writes, whose steps are refused, and the end of a transaction: the count
of answers that an engine can still take (`rxLeft`, `txLeft`) goes down with every answer, and at 0 the engine is no
longer BUSY. -/

namespace Sys2Proof.Machine

/-! ### Errors -/

/-- Settles O34: an error other than Io keeps the kind, Io writes it. -/
theorem raiseEntersError : Obligations.RaiseEntersError := by
  refine fun s => ⟨fun p hp => ?_, fun k => ⟨rfl, rfl⟩⟩
  simp only [List.mem_cons, List.not_mem_nil, or_false] at hp
  rcases hp with rfl | rfl | rfl | rfl
  · exact ⟨rfl, rfl⟩
  · exact ⟨rfl, rfl⟩
  · exact ⟨rfl, rfl⟩
  · exact ⟨rfl, rfl⟩

/-! ### Refusals -/

/-- R342: how the host is refused. -/
theorem hostStep_refused {s : State} {r : Refusal} (h : hostStep s = .refused r) :
    r = .hostProtocol ∨ r = .resultNotValid ∨ r = .badDescriptor := by
  unfold hostStep at h
  split at h
  · cases h
  · cases h ▸ hostAct_outcome _ _
    assumption

/-- R330: a source event is never refused. -/
theorem rxStep_ne_refused (s : State) (r : Refusal) : rxStep s ≠ .refused r := by
  intro h
  rcases rxStep_cases s with ⟨-, hs⟩ | ⟨e, src, -, -, hs⟩
  · cases hs.symm.trans h
  · have he := hs.symm.trans h
    rcases rxEvent_onlyRx e (withSource s src) with ⟨r', hr⟩ | hf | hf
    · cases hr.symm.trans he
    · cases hf.symm.trans he
    · cases hf.symm.trans he

/-- R330: a sink answer is never refused. -/
theorem txStep_ne_refused (s : State) (r : Refusal) : txStep s ≠ .refused r := by
  rcases txStep_cases s with ⟨-, hs⟩ | ⟨a, ans, -, -, -, hs⟩
  · rw [hs]
    nofun
  · rw [hs]
    unfold txEmit
    split
    · cases a <;> nofun
    · nofun

/-- Settles O35: of the four agents only the host is refused. -/
theorem onlyHostActionsAreRefused : Obligations.OnlyHostActionsAreRefused := by
  intro s r h
  cases hsch : s.schedule with
  | nil =>
    simp only [step, hsch] at h
    cases h
  | cons a sch =>
    rw [step_of_schedule hsch] at h
    cases a with
    | host => exact ⟨hostStep_refused h, sch, rfl⟩
    | rx => exact absurd h (rxStep_ne_refused _ r)
    | tx => exact absurd h (txStep_ne_refused _ r)
    | reset => cases h

/-! ### A transaction that has ended -/

/-- R38: an engine that is neither IDLE nor BUSY has ended its transaction. -/
theorem phase_ended {ph : Phase} (hidle : ph ≠ .idle) (hbusy : ph ≠ .busy) : ph = .done ∨ ph = .error := by
  cases ph with
  | idle => exact absurd rfl hidle
  | busy => exact absurd rfl hbusy
  | done => exact .inl rfl
  | error => exact .inr rfl

/-! ### The end of an encode -/

/-- R207: the octets that a TX engine has still to offer. -/
def txLeft (e : TxEngine) : Nat := if e.status.phase = .busy then e.len.toNat - e.idx.toNat else 0

theorem txLeft_of_busy {e : TxEngine} (h : e.status.phase = .busy) : txLeft e = e.len.toNat - e.idx.toNat := if_pos h

theorem txLeft_of_not_busy {e : TxEngine} (h : e.status.phase ≠ .busy) : txLeft e = 0 := if_neg h

/-- R45: a sound TX engine with nothing left to offer is not BUSY. -/
theorem not_busy_of_txLeft {e : TxEngine} (h : txSound e = true) (hleft : txLeft e = 0) : e.status.phase ≠ .busy := by
  intro hbusy
  obtain ⟨-, hprogress, -⟩ := (txSound_iff e).1 h
  obtain ⟨hidx, -, -⟩ := hprogress hbusy
  rw [txLeft_of_busy hbusy] at hleft
  omega

/-- R207 to R209: a sink answer leaves fewer octets to offer. -/
theorem TxMove.txLeft_lt {e e' : TxEngine} (hbusy : e.status.phase = .busy) (h : txSound e = true)
    (hmove : TxMove e e') : txLeft e' < txLeft e := by
  obtain ⟨-, hprogress, -⟩ := (txSound_iff e).1 h
  obtain ⟨hidx, -, hmax⟩ := hprogress hbusy
  rw [txLeft_of_busy hbusy]
  cases hmove with
  | advanced hmore =>
    have hleft : txLeft { e with idx := e.idx + 1 } = e.len.toNat - (e.idx + 1).toNat := txLeft_of_busy hbusy
    bv_omega
  | completed _ =>
    rw [txLeft_of_not_busy (by simp)]
    omega
  | faulted k =>
    rw [txLeft_of_not_busy (by simp)]
    omega

/-- R38: a sink answer does not take a BUSY engine to IDLE. -/
theorem TxMove.phase_ne_idle {e e' : TxEngine} (hbusy : e.status.phase = .busy) (hmove : TxMove e e') :
    e'.status.phase ≠ .idle := by
  cases hmove with
  | advanced _ => simp [hbusy]
  | completed _ => simp
  | faulted k => simp

/-- R207, R208: an offer from inside `tx_buf` moves the TX engine and the sink, and nothing else but the schedule. -/
theorem step_of_txTakes_moves {s : State} {r : SinkAnswer} {ans : List SinkAnswer} {sch : List Agent}
    (h : TxTakes s r ans sch) (hidx : s.tx.idx.toNat < 261) :
    ∃ e octets, step s = .next { s with schedule := sch, sinkAnswers := ans, sinkOctets := octets, tx := e } ∧
      TxMove s.tx e := by
  cases r with
  | ok =>
    refine ⟨_, _, step_of_accepted h hidx, ?_⟩
    by_cases hlast : s.tx.idx.toNat + 1 = s.tx.len.toNat
    · rw [if_pos hlast]
      exact .completed ((idx_succ_eq_iff hidx).mpr hlast)
    · rw [if_neg hlast]
      exact .advanced (mt (idx_succ_eq_iff hidx).mp hlast)
  | fault k => exact ⟨_, s.sinkOctets, (step_of_txTakes h).trans (if_pos hidx), .faulted k⟩

/-- R350: as many answers of the sink as octets are left end the transaction. -/
theorem run_txEnds {s : State} {n : Nat} {sch : List Agent} (h : txSound s.tx = true)
    (hidle : s.tx.status.phase ≠ .idle) (hleft : txLeft s.tx ≤ n) (hans : n ≤ s.sinkAnswers.length)
    (hsch : s.schedule = List.replicate n .tx ++ sch) :
    ∃ t : State, Host.Core.run core n s = .next t ∧ (t.tx.status.phase = .done ∨ t.tx.status.phase = .error) := by
  induction n generalizing s with
  | zero => exact ⟨s, rfl, phase_ended hidle (not_busy_of_txLeft h (Nat.le_zero.mp hleft))⟩
  | succ n ih =>
    by_cases hbusy : s.tx.status.phase = .busy
    · obtain ⟨r, ans, hr⟩ := List.exists_cons_of_length_pos (Nat.zero_lt_of_lt hans)
      obtain ⟨-, hprogress, -⟩ := (txSound_iff s.tx).1 h
      obtain ⟨hidx, -, hmax⟩ := hprogress hbusy
      obtain ⟨e, octets, hstep, hmove⟩ :=
        step_of_txTakes_moves (r := r) ⟨hsch, hr, hbusy, hidx⟩ (Nat.lt_of_lt_of_le hidx hmax)
      rw [run_succ hstep]
      rw [hr] at hans
      exact ih (hmove.sound hbusy h) (hmove.phase_ne_idle hbusy)
        (Nat.le_of_lt_succ (Nat.lt_of_lt_of_le (hmove.txLeft_lt hbusy h) hleft)) (Nat.le_of_succ_le_succ hans) rfl
    · rw [run_succ ((step_of_schedule hsch).trans (txStep_waits (.inl hbusy)))]
      exact ih h hidle ((txLeft_of_not_busy hbusy).trans_le (Nat.zero_le n)) (Nat.le_of_succ_le hans) rfl

/-- Settles O60: a sound TX engine that is BUSY has at most 261 octets left. -/
theorem txTransactionEnds : Obligations.TxTransactionEnds := by
  rintro s sch ⟨-, htx⟩ hbusy hans hsch
  obtain ⟨-, hprogress, -⟩ := (txSound_iff s.tx).1 htx
  obtain ⟨-, -, hmax⟩ := hprogress hbusy
  refine run_txEnds htx (by simp [hbusy]) ?_ hans hsch
  rw [txLeft_of_busy hbusy]
  exact (Nat.sub_le _ _).trans hmax

/-! ### The end of a decode -/

/-- R170: the most answers of the source that a decode in its position can still take, the closing flag among them. A
hunt has no such bound; its 261, one flag and the 260 answers after it, is above every other. -/
def rxStateLeft (r : RxEngine) : Nat :=
  match r.state with
  | .hunt => 261
  | .addr => 260
  | .type => 259
  | .len1 => 258
  | .len2 => 257
  | .info => r.len.toNat - r.cnt.toNat + 2
  | .fcs => 2
  | .close => 1

/-- R170: the most answers of the source that an RX engine can still take once it has found its flag. -/
def rxLeft (r : RxEngine) : Nat := if r.status.phase = .busy then rxStateLeft r else 0

theorem rxLeft_of_busy {r : RxEngine} (h : r.status.phase = .busy) : rxLeft r = rxStateLeft r := if_pos h

theorem rxLeft_of_not_busy {r : RxEngine} (h : r.status.phase ≠ .busy) : rxLeft r = 0 := if_neg h

theorem rxLeft_le (r : RxEngine) : rxLeft r ≤ rxStateLeft r := by
  by_cases hbusy : r.status.phase = .busy
  · exact (rxLeft_of_busy hbusy).le
  · exact (rxLeft_of_not_busy hbusy).trans_le (Nat.zero_le _)

theorem rxStateLeft_pos (r : RxEngine) : 0 < rxStateLeft r := by
  unfold rxStateLeft
  split <;> omega

/-- An RX engine with no answer left to take is not BUSY. -/
theorem not_busy_of_rxLeft {r : RxEngine} (hleft : rxLeft r = 0) : r.status.phase ≠ .busy := by
  intro hbusy
  have hpos : 0 < rxStateLeft r := rxStateLeft_pos r
  rw [rxLeft_of_busy hbusy] at hleft
  omega

/-- Every next state that `o` can be has an RX engine with at most `n` answers left. -/
def RxLeaves (n : Nat) (o : Result) : Prop := ∀ t, o = .next t → rxLeft t.rx ≤ n

theorem rxLeaves_next {n : Nat} {t : State} (h : rxStateLeft t.rx ≤ n) : RxLeaves n (.next t) := by
  rintro _ ⟨⟩
  exact (rxLeft_le t.rx).trans h

theorem rxLeaves_fault (n : Nat) (f : Fault) : RxLeaves n (.fault f) := by
  rintro _ ⟨⟩

/-- R331: an error leaves none. -/
theorem rxLeaves_raise (n : Nat) (e : CmuxError) (s : State) : RxLeaves n (.next (raise .rx e s)) := by
  rintro _ ⟨⟩
  exact (rxLeft_of_not_busy (by simp)).trans_le (Nat.zero_le n)

/-- R168: a completion leaves none. -/
theorem rxLeaves_complete (n : Nat) (f : Frame) (s : State) : RxLeaves n (.next (rxComplete f s)) := by
  rintro _ ⟨⟩
  exact (rxLeft_of_not_busy (by simp)).trans_le (Nat.zero_le n)

theorem RxLeaves.mono {m n : Nat} {o : Result} (h : RxLeaves m o) (hmn : m ≤ n) : RxLeaves n o :=
  fun t ht => (h t ht).trans hmn

/-- R159 to R161: a complete length leaves at most 254 information octets, the FCS and the closing flag. -/
theorem rxRunFrameType_leaves (s : State) : RxLeaves 256 (rxRunFrameType s) := by
  unfold rxRunFrameType
  cases s.rx.ftype with
  | sabm =>
    simp only [frameInstr, exec, execSabm]
    split
    · exact rxLeaves_raise _ _ s
    · exact rxLeaves_next (show 2 ≤ 256 by decide)
  | uih =>
    simp only [frameInstr, exec, execUih]
    split
    · exact rxLeaves_raise _ _ s
    · rename_i hle
      have hmax : s.rx.len.toNat ≤ 254 := Nat.le_of_not_gt hle
      split
      · exact rxLeaves_raise _ _ s
      · exact rxLeaves_next (show s.rx.len.toNat - 0 + 2 ≤ 256 by omega)
  | ua => exact rxLeaves_raise _ _ s
  | dm => exact rxLeaves_raise _ _ s
  | disc => exact rxLeaves_raise _ _ s
  | ui => exact rxLeaves_raise _ _ s

/-- R163, R230: a complete information field leaves the FCS and the closing flag. -/
theorem rxRunInfoType_leaves (s : State) : RxLeaves 2 (rxRunInfoType s) := by
  unfold rxRunInfoType
  split
  · exact rxLeaves_raise _ _ s
  · rename_i i h
    obtain ⟨T, -, rfl⟩ := decodeInfoTag_ok h
    rw [exec_infoInstr]
    split
    · rename_i rule _
      cases hP : rxPayload s with
      | none =>
        rw [readInfo_of_no_payload hP]
        exact rxLeaves_fault 2 _
      | some P =>
        rw [readInfo_of_payload hP]
        cases rule P with
        | error e => exact rxLeaves_raise _ _ s
        | ok body => exact rxLeaves_next (Nat.le_refl 2)
    · exact rxLeaves_raise _ _ s

/-- R162: an information octet leaves one octet fewer of its field. -/
theorem rxInfoOctet_leaves {s : State} (b : Byte) (hq : s.rx.state = .info) (hlen : s.rx.len.toNat ≤ 254)
    (hcnt : s.rx.cnt.toNat < s.rx.len.toNat) : RxLeaves (s.rx.len.toNat - s.rx.cnt.toNat + 1) (rxInfoOctet b s) := by
  have hfits : s.rx.cnt.toNat < 254 := by omega
  by_cases hend : s.rx.cnt.toNat + 1 = s.rx.len.toNat
  · have hstored : (rxStoreInfo b s).rx.cnt.toNat = (rxStoreInfo b s).rx.len.toNat := (cnt_succ hfits).trans hend
    rw [rxInfoOctet_fits hfits, rxCheckInfoEnd_of_eq hstored]
    exact (rxRunInfoType_leaves _).mono (by omega)
  · rw [rxInfoOctet_of_ne hq hfits hend]
    refine rxLeaves_next ?_
    have hsucc : (rxStoreInfo b s).rx.cnt.toNat = s.rx.cnt.toNat + 1 := cnt_succ hfits
    have hstay : (rxStoreInfo b s).rx.state = .info := hq
    simp only [rxStateLeft, hstay, hsucc]
    show s.rx.len.toNat - _ + 2 ≤ _
    omega

/-- R155 to R168: past the hunt every octet leaves fewer answers. -/
theorem rxOctet_leaves {s : State} {n : Nat} (b : Byte) (hp : rxProgress s.rx = true) (hq : s.rx.state ≠ .hunt)
    (hleft : rxStateLeft s.rx ≤ n + 1) : RxLeaves n (rxOctet b s) := by
  cases hstate : s.rx.state <;> simp only [rxStateLeft, hstate] at hleft <;> simp only [rxOctet, hstate]
  case hunt => exact absurd hstate hq
  case addr => exact rxLeaves_next (show 259 ≤ n by omega)
  case type =>
    unfold rxTypeOctet
    split
    · exact rxLeaves_raise n _ _
    · exact rxLeaves_next (show 258 ≤ n by omega)
  case len1 =>
    unfold rxLen1Octet
    split
    · exact (rxRunFrameType_leaves _).mono (by omega)
    · exact rxLeaves_next (show 257 ≤ n by omega)
  case len2 => exact (rxRunFrameType_leaves _).mono (by omega)
  case info =>
    obtain ⟨-, -, hlen, hcnt⟩ := (rxProgress_info hstate).1 hp
    exact (rxInfoOctet_leaves b hstate hlen hcnt).mono (by omega)
  case fcs =>
    unfold rxFcsOctet
    split
    · exact rxLeaves_raise n _ s
    · exact rxLeaves_next (show 1 ≤ n by omega)
  case close =>
    unfold rxCloseOctet
    split
    · exact rxLeaves_raise n _ s
    · exact rxLeaves_complete n _ s

/-- R151 to R168: past the hunt every answer of the source leaves fewer. -/
theorem rxEvent_leaves {s : State} {n : Nat} (e : SrcEvent) (hp : rxProgress s.rx = true) (hq : s.rx.state ≠ .hunt)
    (hleft : rxStateLeft s.rx ≤ n + 1) : RxLeaves n (rxEvent e s) := by
  cases e with
  | byte b => exact rxOctet_leaves b hp hq hleft
  | eof => exact rxLeaves_raise _ _ s
  | fault k => exact rxLeaves_raise _ _ s

/-- R38: a source event does not take a BUSY engine to IDLE. -/
theorem RxMove.phase_ne_idle {P : Prop} {r r' : RxEngine} (hbusy : r.status.phase = .busy) (hmove : RxMove P r r') :
    r'.status.phase ≠ .idle := by
  cases hmove with
  | goesOn hst _ _ => simp [hst, hbusy]
  | raised e hst _ _ => simp [hst]
  | completed f hst _ _ => simp [hst]

/-- R81: an event of a decode whose working registers agree with its position changes the RX engine only. -/
theorem rxEvent_onlyRx_of_progress {s : State} (h : rxProgress s.rx = true) (e : SrcEvent) :
    OnlyRx s (rxEvent e s) := by
  rcases rxEvent_onlyRx e s with hr | hf | hf
  · exact hr
  · exact absurd hf (rxEvent_ne_fault h e _)
  · exact absurd hf (rxEvent_ne_fault h e _)

/-- R151 to R168: past the hunt the step that takes an answer leaves fewer, and changes the RX engine, the source and
the schedule only. -/
theorem step_of_rxTakes_moves {s : State} {q : RxState} {e : SrcEvent} {src : List SrcEvent} {sch : List Agent}
    (htakes : RxTakes s q e src sch) (hp : rxProgress s.rx = true) (hq : s.rx.state ≠ .hunt) :
    ∃ r, step s = .next (withRx (rxTaken s src sch) r) ∧
      RxMove (rxProgress s.rx = true ∧ RxBufSound s.rx.buf) s.rx r ∧ rxLeft r < rxStateLeft s.rx := by
  obtain ⟨r, hr⟩ := rxEvent_onlyRx_of_progress (s := rxTaken s src sch) hp e
  obtain ⟨n, hn⟩ := Nat.exists_eq_add_one.mpr (rxStateLeft_pos s.rx)
  have hleaves : RxLeaves n (rxEvent e (rxTaken s src sch)) := rxEvent_leaves e hp hq hn.le
  exact ⟨r, (step_of_rxTakes htakes).trans hr, rxEvent_moves e (rxTaken s src sch) _ hr,
    (Nat.lt_succ_of_le (hleaves _ hr)).trans_eq hn.symm⟩

/-- R350: past the hunt, as many answers of the source as are left end the transaction. -/
theorem run_rxEnds {s : State} {n : Nat} {sch : List Agent} (h : rxSound s.rx = true)
    (hidle : s.rx.status.phase ≠ .idle) (hleft : rxLeft s.rx ≤ n) (hn : n ≤ 260) (hans : n ≤ s.source.length)
    (hsch : s.schedule = List.replicate n .rx ++ sch) :
    ∃ t : State, Host.Core.run core n s = .next t ∧ (t.rx.status.phase = .done ∨ t.rx.status.phase = .error) := by
  induction n generalizing s with
  | zero => exact ⟨s, rfl, phase_ended hidle (not_busy_of_rxLeft (Nat.le_zero.mp hleft))⟩
  | succ n ih =>
    by_cases hbusy : s.rx.status.phase = .busy
    · obtain ⟨e, src, he⟩ := List.exists_cons_of_length_pos (Nat.zero_lt_of_lt hans)
      obtain ⟨-, -, hprogress, -⟩ := (rxSound_iff s.rx).1 h
      have hp : rxProgress s.rx = true := hprogress hbusy
      rw [rxLeft_of_busy hbusy] at hleft
      have hq : s.rx.state ≠ .hunt := fun hq => by
        simp only [rxStateLeft, hq] at hleft
        omega
      obtain ⟨r, hstep, hmove, hlt⟩ := step_of_rxTakes_moves ⟨hsch, he, hbusy, rfl⟩ hp hq
      rw [run_succ hstep]
      rw [he] at hans
      exact ih (hmove.sound hbusy h) (hmove.phase_ne_idle hbusy) (Nat.le_of_lt_succ (Nat.lt_of_lt_of_le hlt hleft))
        (Nat.le_of_succ_le hn) (Nat.le_of_succ_le_succ hans) rfl
    · rw [run_succ ((step_of_schedule hsch).trans (rxStep_waits (.inl hbusy)))]
      exact ih h hidle ((rxLeft_of_not_busy hbusy).trans_le (Nat.zero_le n)) (Nat.le_of_succ_le hn)
        (Nat.le_of_succ_le hans) rfl

/-- R152: octets without a flag do not end the hunt. -/
theorem rxReads_noise (p : Params) {r : RxEngine} (hbusy : r.status.phase = .busy) (hq : r.state = .hunt)
    {pre : List Byte} (hpre : flag ∉ pre) : RxReads p r pre r := by
  induction pre with
  | nil => exact .nil p r
  | cons b pre ih =>
    obtain ⟨hb, hpre⟩ := List.ne_and_not_mem_of_not_mem_cons hpre
    refine .cons (.octet hbusy ?_) (ih hpre)
    rintro s - rfl
    rw [rxOctet, hq]
    exact rxHuntOctet_other hq hb.symm

/-- Settles O59: the noise and the flag are read, and the decode has at most 260 answers left. -/
theorem rxTransactionEnds : Obligations.RxTransactionEnds := by
  rintro s pre evs sch ⟨hrx, -⟩ hbusy hq hpre hevs hsource hsch
  have hhunt := (rxReads_noise s.params hbusy hq hpre).append (rxReads_openingFlag s.params hbusy hq)
  have hfound := hhunt s evs (List.replicate 260 .rx ++ sch) rfl rfl hsource
    (by rw [hsch, List.replicate_add, List.append_assoc, List.length_append, List.length_singleton])
  rw [List.length_append, List.length_singleton] at hfound
  rw [run_add hfound]
  obtain ⟨hlegal, hresult, -, hbuf⟩ := (rxSound_iff s.rx).1 hrx
  have hsound : rxSound { s.rx with crc := crcInit, state := .addr } = true :=
    (rxSound_iff _).2 ⟨hlegal, hresult, fun _ => rfl, hbuf⟩
  have hidle : s.rx.status.phase ≠ .idle := by simp [hbusy]
  exact run_rxEnds hsound hidle (rxLeft_le _) (Nat.le_refl 260) hevs rfl

end Sys2Proof.Machine

/-! PROOFS. The reset family: a step of the platform's reset in any state (`step_of_reset`). -/

namespace Sys2Proof.Machine

/-- R370: a step of the platform's reset uses its schedule entry and resets the block, whatever the engines do. -/
theorem step_of_reset {s : State} {sch : List Agent} (hsch : s.schedule = .reset :: sch) :
    step s = .next (resetBlock (withSchedule s sch)) :=
  step_of_schedule hsch

/-- Settles O2: the step gives both engines the registers they have in `State.reset`, and the rest of the state is
outside the block. -/
theorem resetEventDropsTransactions : Obligations.ResetEventDropsTransactions := by
  intro s sch hsch
  obtain ⟨hrxPhase, htxPhase, hrxErr, htxErr, hresult, hdesc⟩ := resetLeavesStatedRegisters
  exact ⟨_, step_of_reset hsch, hrxPhase, hrxErr, hresult, htxPhase, htxErr, hdesc, rfl, rfl, rfl, rfl, rfl, rfl⟩

end Sys2Proof.Machine
